-- ==== Sys2Proof/Word.lean ====
section
/-! DEFINITION. The two widths of REF8 (spec/00_scope.md R9): bytes of 8 bits and words of 16 bits. -/

namespace Sys2Proof

/-- A general register, a byte of memory, an immediate (`DATA_BITS` = 8). -/
abbrev Byte := BitVec 8

/-- An address, PC, a stack entry (`ADDR_BITS` = `STACK_WIDTH` = 16). -/
abbrev Word := BitVec 16

end Sys2Proof
end

