-- ==== Sys2Proof/Syntax.lean ====
section
/-! DEFINITION. The 52 instructions of spec/opcode_table.json, one constructor a row, in the table's order. -/

namespace Sys2Proof

/-- The register field `r`: 0 is A, 1 is B, 2 is X, 3 is Y (30_encoding.md R99). -/
inductive Reg where
  | a
  | b
  | x
  | y
deriving DecidableEq, Repr

/-- The instructions (30_encoding.md R100). A name ending in `R` is a register form `A,r`, one ending in `I` an
immediate form `A,#imm8`; `ldX` and `stX` are the forms indexed by X. -/
inductive Instr where
  | nop
  | hlt
  | ret
  | reti
  | ei
  | di
  | clc
  | sec
  | movAR (r : Reg)
  | movRA (r : Reg)
  | addR (r : Reg)
  | adcR (r : Reg)
  | subR (r : Reg)
  | sbcR (r : Reg)
  | andR (r : Reg)
  | orR (r : Reg)
  | xorR (r : Reg)
  | cmpR (r : Reg)
  | adnR (r : Reg)
  | inc (r : Reg)
  | dec (r : Reg)
  | shl
  | shr
  | rol
  | ror
  | tfa
  | taf
  | ldi (r : Reg) (imm8 : Byte)
  | addI (imm8 : Byte)
  | adcI (imm8 : Byte)
  | subI (imm8 : Byte)
  | sbcI (imm8 : Byte)
  | andI (imm8 : Byte)
  | orI (imm8 : Byte)
  | xorI (imm8 : Byte)
  | cmpI (imm8 : Byte)
  | adnI (imm8 : Byte)
  | bra (rel8 : Byte)
  | beq (rel8 : Byte)
  | bne (rel8 : Byte)
  | bcs (rel8 : Byte)
  | bcc (rel8 : Byte)
  | bmi (rel8 : Byte)
  | bpl (rel8 : Byte)
  | bvs (rel8 : Byte)
  | bvc (rel8 : Byte)
  | ld (r : Reg) (a16 : Word)
  | st (r : Reg) (a16 : Word)
  | ldX (r : Reg) (a16 : Word)
  | stX (r : Reg) (a16 : Word)
  | jmp (a16 : Word)
  | call (a16 : Word)
deriving DecidableEq, Repr

end Sys2Proof
end

