-- ==== Sys2Proof/Config.lean ====
section
/-! DEFINITION. What an instance fixes (spec/00_scope.md R9, R10), the closed enumerations of its boundary, the
platform's memory map, and the values the spec leaves open. The constants of REF8 itself (vectors, cycle costs,
masks) stand in Machine/Ops.lean. -/

namespace Sys2Proof

/-- `ILLEGAL_POLICY` (R9, 46_system.md R237): fixed when an instance is constructed. -/
inductive IllegalPolicy where
  | nopContinue
  | fatal
deriving DecidableEq, Repr

/-- The construction arguments that some rule reads (R9). They never change while the instance lives. -/
structure Config where
  illegalPolicy : IllegalPolicy
  /-- `OPEN_BUS_FILL`: what a read of an unmapped address gives (20_memory.md R64). -/
  openBusFill : Byte
deriving DecidableEq, Repr

/-- A free value: the `OPEN_BUS_FILL` of the instance that `State.reset` describes; the spec leaves it open
(92_eei_decisions.md D33; log 3). -/
opaque Config.openBusFillAtReset : Byte

/-- A free value: what a device answers to the `n`-th bus access when nothing has been scripted for it
(20_memory.md R60; log 5). -/
opaque Config.deviceByte : Nat → Byte

/-- `CLOCK_HZ`, carried and read by no rule (70_reset_and_hazards.md R303; log 16). -/
opaque Config.clockHz : Nat

/-- The three input lines (60_exceptions.md R241). -/
inductive Line where
  | irq
  | nmi
  | reset
deriving DecidableEq, Repr

/-- The level of a line (60_exceptions.md R242). -/
inductive Level where
  | cleared
  | asserted
deriving DecidableEq, Repr

/-- The keys of the State Exporter (10_state.md R48). -/
inductive StateKey where
  | pc
  | f
  | a
  | b
  | x
  | y
  | spl
  | stk (k : Fin 8)
  | nmip
  | ishadow
  | halted
deriving DecidableEq, Repr

/-- What the platform has put behind a range of addresses (20_memory.md R60, R72; log 19). -/
inductive RegionKind where
  | ram
  | rom
  | device
deriving DecidableEq, Repr

/-- One row of the platform's map: `size` addresses from `base` up. -/
structure Region where
  base : Nat
  size : Nat
  kind : RegionKind
deriving DecidableEq, Repr

end Sys2Proof
end

