-- ==== Sys2Proof/WellFormed.lean ====
section
/-! DEFINITION. What is checked at the boundary. Every value an instruction's fields can take is legal (spec/30_encoding.md
R99, R101), so no instruction is ill-formed; what can be wrong is what the outside gives at set-up: an
address-space width, a row of the platform's map (00_scope.md R10). Line ids and State Exporter indices are checked where
they are turned into their closed enumerations (Machine/HostOps.lean). -/

namespace Sys2Proof

/-- An instruction's operands lie in the ranges of R98. A register operand is one of the closed enumeration of four, all
legal in every instruction (R99). Every instruction passes (`Instr.wf_all`): R101 says that no operand byte makes a
legal instruction illegal. -/
def Instr.wf : Instr → Bool
  | .ldi _ v | .addI v | .adcI v | .subI v | .sbcI v | .andI v | .orI v | .xorI v | .cmpI v | .adnI v
  | .bra v | .beq v | .bne v | .bcs v | .bcc v | .bmi v | .bpl v | .bvs v | .bvc v => decide (v.toNat < 256)
  | .ld _ a16 | .st _ a16 | .ldX _ a16 | .stX _ a16 | .jmp a16 | .call a16 => decide (a16.toNat < 65536)
  | .movAR _ | .movRA _ | .addR _ | .adcR _ | .subR _ | .sbcR _ | .andR _ | .orR _ | .xorR _ | .cmpR _ | .adnR _
  | .inc _ | .dec _ | .nop | .hlt | .ret | .reti | .ei | .di | .clc | .sec | .shl | .shr | .rol | .ror | .tfa
  | .taf => true

/-- A configuration error, reported at set-up and never at run time (R10). -/
inductive ConfigError where
  /-- An address-space width other than 16. Safe: nothing runs. -/
  | addressWidth (bits : Nat)
  /-- A row of the map that is empty or leaves the 2^16 addresses. Safe: nothing runs. -/
  | badRegion (r : Region)
deriving DecidableEq, Repr

/-- A row of the map is not empty and stays within the 2^16 addresses of 20_memory.md R67. -/
def Region.wf (r : Region) : Bool := decide (0 < r.size) && decide (r.base + r.size ≤ 65536)

/-- The first configuration error of a request, if there is one (R10, 70_reset_and_hazards.md R280). -/
def configError (addrBits : Nat) (map : List Region) : Option ConfigError :=
  if addrBits ≠ 16 then some (.addressWidth addrBits)
  else (map.find? (fun r => !r.wf)).map .badRegion

end Sys2Proof
end

