-- ==== Sys2Proof/Decode.lean ====
section
/-! DEFINITION. The decoder and the encoder (spec/30_encoding.md). `lookup` is the dispatch table of R93 and R100, a
function of the opcode bits alone; `decode` cuts one instruction off a byte stream; `encode` writes an instruction's
bytes from the formats of R97. -/

namespace Sys2Proof

/-- The two bits of a register field (R99). -/
def Reg.field : Reg → BitVec 2
  | .a => 0
  | .b => 1
  | .x => 2
  | .y => 3

/-- The register a field names (R99). -/
def Reg.ofField (r : BitVec 2) : Reg :=
  match r.toNat with
  | 0 => .a
  | 1 => .b
  | 2 => .x
  | _ => .y

/-- The length of an instruction, from bits 7:6 of its first byte alone (R92). -/
def lengthOf (b0 : Byte) : Nat :=
  if b0.getLsbD 7 then (if b0.getLsbD 6 then 3 else 2) else 1

/-- `a16 = b2 :: b1` (R98): the byte fetched second is bits 15:8. -/
def wordOf (lo hi : Byte) : Word := hi ++ lo

/-- Bits 7:0 of a word. -/
def lowByte (w : Word) : Byte := w.extractLsb' 0 8

/-- Bits 15:8 of a word. -/
def highByte (w : Word) : Byte := w.extractLsb' 8 8

/-- The rows of R100 whose first byte is a register field under a six-bit opcode (formats REG, RIMM, RABS); `op6` is
bits 7:2 of the first byte. -/
def lookupReg (op6 : BitVec 6) (r : Reg) (b1 b2 : Byte) : Option Instr :=
  match op6.toNat with
  | 0b000010 => some (.movAR r)
  | 0b000011 => some (.movRA r)
  | 0b000100 => some (.addR r)
  | 0b000101 => some (.adcR r)
  | 0b000110 => some (.subR r)
  | 0b000111 => some (.sbcR r)
  | 0b001000 => some (.andR r)
  | 0b001001 => some (.orR r)
  | 0b001010 => some (.xorR r)
  | 0b001011 => some (.cmpR r)
  | 0b001100 => some (.adnR r)
  | 0b001101 => some (.inc r)
  | 0b001110 => some (.dec r)
  | 0b100000 => some (.ldi r b1)
  | 0b110000 => some (.ld r (wordOf b1 b2))
  | 0b110001 => some (.st r (wordOf b1 b2))
  | 0b110010 => some (.ldX r (wordOf b1 b2))
  | 0b110011 => some (.stX r (wordOf b1 b2))
  | _ => none

/-- The dispatch table (R93, R100): the instruction of a first byte and its operand bytes; `none` is the entry of the
illegal-opcode handler (R101). -/
def lookup (b0 b1 b2 : Byte) : Option Instr :=
  match b0.toNat with
  | 0x00 => some .nop
  | 0x01 => some .hlt
  | 0x02 => some .ret
  | 0x03 => some .reti
  | 0x04 => some .ei
  | 0x05 => some .di
  | 0x06 => some .clc
  | 0x07 => some .sec
  | 0x3C => some .shl
  | 0x3D => some .shr
  | 0x3E => some .rol
  | 0x3F => some .ror
  | 0x40 => some .tfa
  | 0x41 => some .taf
  | 0x84 => some (.addI b1)
  | 0x85 => some (.adcI b1)
  | 0x86 => some (.subI b1)
  | 0x87 => some (.sbcI b1)
  | 0x88 => some (.andI b1)
  | 0x89 => some (.orI b1)
  | 0x8A => some (.xorI b1)
  | 0x8B => some (.cmpI b1)
  | 0x8C => some (.adnI b1)
  | 0x90 => some (.bra b1)
  | 0x91 => some (.beq b1)
  | 0x92 => some (.bne b1)
  | 0x93 => some (.bcs b1)
  | 0x94 => some (.bcc b1)
  | 0x95 => some (.bmi b1)
  | 0x96 => some (.bpl b1)
  | 0x97 => some (.bvs b1)
  | 0x98 => some (.bvc b1)
  | 0xD0 => some (.jmp (wordOf b1 b2))
  | 0xD1 => some (.call (wordOf b1 b2))
  | _ => lookupReg (b0.extractLsb' 2 6) (Reg.ofField (b0.extractLsb' 0 2)) b1 b2

/-- What the decoder makes of a byte stream. -/
inductive Decoded where
  /-- A legal instruction and the bytes after it. -/
  | instr (i : Instr) (rest : List Byte)
  /-- A first byte outside R100, whose operand bytes are there (R96, R101). -/
  | illegalOpcode (b0 : Byte)
  /-- The stream ends inside the instruction (a finite list only: memory never ends). -/
  | truncated
deriving DecidableEq, Repr

/-- The dispatch table's answer as a `Decoded`. -/
def decodedOf (b0 b1 b2 : Byte) (rest : List Byte) : Decoded :=
  match lookup b0 b1 b2 with
  | some i => .instr i rest
  | none => .illegalOpcode b0

/-- Cut one instruction off a byte stream: length first, then the operand bytes, then the table (R95, R96). -/
def decode : List Byte → Decoded
  | [] => .truncated
  | b0 :: rest =>
    match lengthOf b0, rest with
    | 1, rest => decodedOf b0 0 0 rest
    | 2, b1 :: rest => decodedOf b0 b1 0 rest
    | 3, b1 :: b2 :: rest => decodedOf b0 b1 b2 rest
    | _, _ => .truncated

/-- First byte of formats REG, RIMM and RABS (R97). -/
def regByte (op6 : BitVec 6) (r : Reg) : Byte := op6 ++ r.field

/-- The bytes of an instruction, lowest address first (R97, R98, R100). -/
def encode : Instr → List Byte
  | .nop => [0x00]
  | .hlt => [0x01]
  | .ret => [0x02]
  | .reti => [0x03]
  | .ei => [0x04]
  | .di => [0x05]
  | .clc => [0x06]
  | .sec => [0x07]
  | .movAR r => [regByte 0b000010 r]
  | .movRA r => [regByte 0b000011 r]
  | .addR r => [regByte 0b000100 r]
  | .adcR r => [regByte 0b000101 r]
  | .subR r => [regByte 0b000110 r]
  | .sbcR r => [regByte 0b000111 r]
  | .andR r => [regByte 0b001000 r]
  | .orR r => [regByte 0b001001 r]
  | .xorR r => [regByte 0b001010 r]
  | .cmpR r => [regByte 0b001011 r]
  | .adnR r => [regByte 0b001100 r]
  | .inc r => [regByte 0b001101 r]
  | .dec r => [regByte 0b001110 r]
  | .shl => [0x3C]
  | .shr => [0x3D]
  | .rol => [0x3E]
  | .ror => [0x3F]
  | .tfa => [0x40]
  | .taf => [0x41]
  | .ldi r imm8 => [regByte 0b100000 r, imm8]
  | .addI imm8 => [0x84, imm8]
  | .adcI imm8 => [0x85, imm8]
  | .subI imm8 => [0x86, imm8]
  | .sbcI imm8 => [0x87, imm8]
  | .andI imm8 => [0x88, imm8]
  | .orI imm8 => [0x89, imm8]
  | .xorI imm8 => [0x8A, imm8]
  | .cmpI imm8 => [0x8B, imm8]
  | .adnI imm8 => [0x8C, imm8]
  | .bra rel8 => [0x90, rel8]
  | .beq rel8 => [0x91, rel8]
  | .bne rel8 => [0x92, rel8]
  | .bcs rel8 => [0x93, rel8]
  | .bcc rel8 => [0x94, rel8]
  | .bmi rel8 => [0x95, rel8]
  | .bpl rel8 => [0x96, rel8]
  | .bvs rel8 => [0x97, rel8]
  | .bvc rel8 => [0x98, rel8]
  | .ld r a16 => [regByte 0b110000 r, lowByte a16, highByte a16]
  | .st r a16 => [regByte 0b110001 r, lowByte a16, highByte a16]
  | .ldX r a16 => [regByte 0b110010 r, lowByte a16, highByte a16]
  | .stX r a16 => [regByte 0b110011 r, lowByte a16, highByte a16]
  | .jmp a16 => [0xD0, lowByte a16, highByte a16]
  | .call a16 => [0xD1, lowByte a16, highByte a16]

/-- The first three bytes of an instruction whose bits are the low `nbits` of `w`, bit 0 the least significant bit of the
first byte; every bit above `nbits` is 0. -/
def tableBytes (nbits w : Nat) : List Byte :=
  let v := w % 2 ^ nbits
  [BitVec.ofNat 8 v, BitVec.ofNat 8 (v / 256), BitVec.ofNat 8 (v / 65536)]

/-- The instruction the decoder reads from a word numbered as spec/opcode_table.json numbers its bits. -/
def decodeTableWord (nbits w : Nat) : Option Instr :=
  match decode (tableBytes nbits w) with
  | .instr i _ => some i
  | .illegalOpcode _ => none
  | .truncated => none

end Sys2Proof
end

