-- ==== Sys2Proof/Machine/State.lean ====
section
/-! DEFINITION. The state of one core instance (spec/10_state.md), the Address Space it is attached to (20_memory.md), the
inputs the outside will make, and the record of what has left the core. INVENTORY.md lists every field. -/

namespace Sys2Proof.Machine

/-- The general registers A, B, X, Y (R21). -/
structure Regs where
  a : Byte
  b : Byte
  x : Byte
  y : Byte
deriving DecidableEq, Repr

/-- Line State (R36) and the two request latches (R37); written by `set_line`, a dispatch and a reset only. -/
structure LineState where
  irqLevel : Level
  nmiLevel : Level
  resetLevel : Level
  nmiPending : Bool
  resetPending : Bool
deriving DecidableEq, Repr

/-- The kind of a synchronous exception: there is one (60_exceptions.md R253). -/
inductive ExceptionKind where
  | illegalOpcode
deriving DecidableEq, Repr

/-- One record of `diag_log` (R42). -/
structure DiagRecord where
  kind : ExceptionKind
  addr : Word
  opcode : Byte
deriving DecidableEq, Repr

/-- The direction of a bus access (20_memory.md R61, R62). -/
inductive AccessKind where
  | read
  | write
deriving DecidableEq, Repr

/-- One bus access as it was issued (20_memory.md R63): direction, address, the byte moved, its wait adjustment. -/
structure BusAccess where
  kind : AccessKind
  addr : Word
  value : Byte
  wait : Nat
deriving DecidableEq, Repr

/-- One call of `set_line` (60_exceptions.md R243). -/
structure LineCall where
  line : Line
  level : Level
deriving DecidableEq, Repr

/-- What the Address Space does in one access beside moving memory: its wait adjustment (20_memory.md R66), the byte a
device gives to a read (R60), the `set_line` calls made from inside the access (R81). -/
structure BusAnswer where
  wait : Nat
  deviceByte : Byte
  lines : List LineCall
deriving DecidableEq, Repr

/-- The operations the host may make while the Engine is Idle and that may change the core (00_scope.md R11);
`state_get` changes nothing and is a function of its own. -/
inductive HostOp where
  | setLine (c : LineCall)
  | stateSet (key : StateKey) (value : Nat)
  | deviceReset
deriving DecidableEq, Repr

/-- One turn of the scheduler: operations made while Idle, then `execute_run(budget)`. -/
structure Quantum where
  ops : List HostOp
  budget : Int
deriving DecidableEq, Repr

/-- Memory: (address, byte) pairs in canonical form (`Memory.wf`). -/
abbrev Memory := List Host.Cell

/-- The machine. -/
structure State where
  /-- PC (R23). -/
  pc : Word
  /-- A, B, X, Y (R21). -/
  regs : Regs
  /-- F (R26); read it through `State.readF`. -/
  f : Byte
  /-- SPL, the index of the next free stack entry (R31). -/
  spl : BitVec 3
  /-- STK[0..7] (R31). -/
  stk : Vector Word 8
  /-- Line levels and request latches (R36, R37). -/
  lines : LineState
  /-- The interrupt shadow (R38). -/
  ishadow : Bool
  /-- The Halted state (R39), which is also the level of HALTACK (60_exceptions.md R270). -/
  halted : Bool
  /-- The Faulted state (R40). -/
  faulted : Bool
  /-- The cycle counter of the current `execute_run` (R41). -/
  icount : Int
  /-- The wait adjustments of the current instruction (R41). -/
  waitAcc : Nat
  /-- `diag_log`, oldest first (R42). -/
  diagLog : List DiagRecord
  /-- The construction arguments (00_scope.md R9); no step changes them. -/
  cfg : Config
  /-- The platform's map; the first row that holds an address decides (20_memory.md R72; log 19). -/
  map : List Region
  /-- What memory holds (20_memory.md R67). -/
  mem : Memory
  /-- MODEL'S OWN: the Address Space's coming answers, one for each access (log 5, 6, 14). -/
  busAnswers : List BusAnswer
  /-- MODEL'S OWN: the `set_line` calls of the coming HALTACK callbacks, one list for each (log 14). -/
  haltackAnswers : List (List LineCall)
  /-- MODEL'S OWN: the host's coming quanta (log 7). -/
  script : List Quantum
  /-- MODEL'S OWN record of every bus access, oldest first (log 15). -/
  busLog : List BusAccess
  /-- MODEL'S OWN record of every HALTACK callback, oldest first (log 15). -/
  haltackLog : List Bool
deriving DecidableEq, Repr

/-- What is outside the core and `device_start` binds it to (70_reset_and_hazards.md R280): the Address Space, which is its
map, its memory and its coming answers; the HALTACK callback, which is its coming `set_line` calls; and the host's coming
quanta (log 7, 14). The fields are those of `State`. -/
structure Surroundings where
  map : List Region
  mem : Memory
  busAnswers : List BusAnswer
  haltackAnswers : List (List LineCall)
  script : List Quantum
deriving DecidableEq, Repr

/-- The phase *started, not yet reset* (70_reset_and_hazards.md R280, R285): the Register File has no values yet. -/
structure Started where
  irqLevel : Level
  nmiLevel : Level
  resetLevel : Level
  /-- `nmi_pending`, which has no value (`none`) until `set_line` or the first reset writes it (R57, R243; log 10). -/
  nmiPending : Option Bool
  resetPending : Bool
  faulted : Bool
  diagLog : List DiagRecord
  /-- The level of HALTACK; `halted` has no value yet. -/
  haltack : Bool
  cfg : Config
  outside : Surroundings
deriving DecidableEq, Repr

/-- The instruction bytes that `Decode()` has fetched (30_encoding.md R95). -/
structure Fetched where
  ipc : Word
  b0 : Byte
  b1 : Byte
  b2 : Byte
deriving DecidableEq, Repr

/-- The interrupts a dispatch can serve (60_exceptions.md R255). -/
inductive Interrupt where
  | nmi
  | irq
deriving DecidableEq, Repr

/-- A step that stops with a fault. There is none: no access and no instruction of REF8 faults (60_exceptions.md R254), and
the one synchronous exception, `Fatal(IllegalOpcode)`, leads to a next state in which `faulted` is set (46_system.md R236;
log 13). -/
inductive Fault where
deriving DecidableEq, Repr

/-- A step that is refused. -/
inductive Refusal where
  /-- An arm of `exec` whose instruction has no meaning yet. Raised by no arm: every instruction has one. Safe. -/
  | notModelled (mnemonic : String)
deriving DecidableEq, Repr

/-- All lines cleared and nothing requested, as `device_start` and the first reset leave them (R55). -/
def LineState.cleared : LineState :=
  { irqLevel := .cleared, nmiLevel := .cleared, resetLevel := .cleared, nmiPending := false, resetPending := false }

/-- The machine right after `device_start` and the first `device_reset` (R55), with the default policy (log 4), RAM at
every address (log 2) holding nothing that was written (log 1), and no input scripted (log 5, 6, 7, 14). -/
def State.reset : State :=
  { pc := 0
    regs := { a := 0, b := 0, x := 0, y := 0 }
    f := 0
    spl := 0
    stk := Vector.replicate 8 0
    lines := LineState.cleared
    ishadow := false
    halted := false
    faulted := false
    icount := 0
    waitAcc := 0
    diagLog := []
    cfg := { illegalPolicy := .nopContinue, openBusFill := Config.openBusFillAtReset }
    map := [{ base := 0, size := 65536, kind := .ram }]
    mem := []
    busAnswers := []
    haltackAnswers := []
    script := []
    busLog := []
    haltackLog := [] }

end Sys2Proof.Machine
end

