-- ==== Sys2Proof/Machine/Ops.lean ====
section
/-! DEFINITION. The named operations over registers, the return stack, the lines, memory and the cycle counter; taking an
interrupt and returning from one; reset; the illegal-opcode handler. Rule numbers are those of spec/. -/

namespace Sys2Proof.Machine

/-! ## Constants of REF8 (00_scope.md R9) -/

/-- `RESET_VECTOR`. -/
def resetVector : Word := 0x0000

/-- `NMI_VECTOR` and `IRQ_VECTOR`, fixed and direct (60_exceptions.md R257). -/
def Interrupt.vector : Interrupt → Word
  | .nmi => 0x0008
  | .irq => 0x0010

/-- `INT_CYCLES`. -/
def intCycles : Nat := 6

/-- `ILLEGAL_CYCLES`. -/
def illegalCycles : Nat := 2

/-- `RESET_CYCLES`. -/
def resetCycles : Nat := 0

/-- `FLAG_MASK`. -/
def flagMask : Byte := 0x1F

/-! ## Registers -/

/-- `x[r]` (10_state.md R21). -/
def Regs.get (g : Regs) : Reg → Byte
  | .a => g.a
  | .b => g.b
  | .x => g.x
  | .y => g.y

/-- `x[r] <- v`. -/
def Regs.set (g : Regs) (r : Reg) (v : Byte) : Regs :=
  match r with
  | .a => { g with a := v }
  | .b => { g with b := v }
  | .x => { g with x := v }
  | .y => { g with y := v }

/-- Read a general register. -/
def State.reg (s : State) (r : Reg) : Byte := s.regs.get r

/-- Write a general register. -/
def State.setReg (s : State) (r : Reg) (v : Byte) : State := { s with regs := s.regs.set r v }

/-- `pc <- v`; a `Word` is within `PC_MASK` by its type (10_state.md R24). -/
def State.setPc (s : State) (v : Word) : State := { s with pc := v }

/-- The flags of F and their bits (10_state.md R27). -/
inductive Flag where
  | c
  | z
  | s
  | v
  | i
deriving DecidableEq, Repr

/-- The bit of F that holds a flag (10_state.md R27). -/
def Flag.bit : Flag → Nat
  | .c => 0
  | .z => 1
  | .s => 2
  | .v => 3
  | .i => 4

/-- F as it reads: bits 7:5 are hardwired to 0 (10_state.md R26; log 25). -/
def State.readF (s : State) : Byte := s.f &&& flagMask

/-- `F <- v & 0x1F` (10_state.md R26). -/
def State.setF (s : State) (v : Byte) : State := { s with f := v &&& flagMask }

/-- One flag of F. -/
def State.flag (s : State) (fl : Flag) : Bool := s.readF.getLsbD fl.bit

/-- A byte with one bit replaced. -/
def putBit (v : Byte) (n : Nat) (b : Bool) : Byte :=
  if b then v ||| (1#8 <<< n) else v &&& ~~~(1#8 <<< n)

/-- `F.fl <- b`: one flag is written, the others stay (10_state.md R28). -/
def State.setFlag (s : State) (fl : Flag) (b : Bool) : State := s.setF (putBit s.readF fl.bit b)

/-! ## The return stack -/

/-- `Push(v)` (10_state.md R33). -/
def State.push (s : State) (v : Word) : State :=
  { s with stk := s.stk.set s.spl.toNat v s.spl.isLt, spl := s.spl + 1 }

/-- The entry that a `Pop()` returns (10_state.md R34). -/
def State.top (s : State) : Word := s.stk[(s.spl - 1).toNat]'(s.spl - 1).isLt

/-- The state a `Pop()` leaves: the entry is not cleared (10_state.md R34). -/
def State.drop (s : State) : State := { s with spl := s.spl - 1 }

/-! ## Lines and the output line -/

/-- A cleared-to-asserted transition, which is what NMI and RESET latch (60_exceptions.md R243). -/
def risingEdge (was now : Level) : Bool := was == .cleared && now == .asserted

/-- `set_line` on the recorded lines (60_exceptions.md R243). -/
def LineState.set (l : LineState) (c : LineCall) : LineState :=
  match c.line with
  | .irq => { l with irqLevel := c.level }
  | .nmi =>
    { l with
      nmiPending := l.nmiPending || risingEdge l.nmiLevel c.level
      nmiLevel := c.level }
  | .reset =>
    { l with
      resetPending := l.resetPending || risingEdge l.resetLevel c.level
      resetLevel := c.level }

/-- Several calls of `set_line`, in order. -/
def LineState.setAll (l : LineState) (cs : List LineCall) : LineState := cs.foldl LineState.set l

/-- The host operation `set_line` (60_exceptions.md R243). -/
def State.setLine (s : State) (c : LineCall) : State := { s with lines := s.lines.set c }

/-- The HALTACK callback with the new level: recorded, and its own `set_line` calls recorded on the lines
(60_exceptions.md R270; log 14). -/
def State.haltackCallback (s : State) (level : Bool) : State :=
  { s with
    haltackLog := s.haltackLog ++ [level]
    haltackAnswers := s.haltackAnswers.tail
    lines := s.lines.setAll (s.haltackAnswers.headD []) }

/-- `halted <- b` and drive HALTACK to `b`; the callback is invoked exactly when the level changes (60_exceptions.md
R270). -/
def State.setHalted (s : State) (b : Bool) : State :=
  if s.halted = b then s else State.haltackCallback { s with halted := b } b

/-! ## Memory and the bus -/

/-- What an unlisted address reads as (log 1). -/
def Memory.unlisted : Byte := 0

/-- The byte memory holds at an address. -/
def Memory.read : Memory → Nat → Byte
  | [], _ => Memory.unlisted
  | (k, v) :: rest, a => if a = k then v else Memory.read rest a

/-- Store a byte, keeping the canonical form. -/
def Memory.write : Memory → Nat → Byte → Memory
  | [], a, v => if v = Memory.unlisted then [] else [(a, v)]
  | (k, w) :: rest, a, v =>
    if a < k then (if v = Memory.unlisted then (k, w) :: rest else (a, v) :: (k, w) :: rest)
    else if a = k then (if v = Memory.unlisted then rest else (a, v) :: rest)
    else (k, w) :: Memory.write rest a v

/-- Every address of the list is above `lo` (when there is one) and in rising order. -/
def Memory.rising : Option Nat → Memory → Bool
  | _, [] => true
  | lo, (k, _) :: rest => (match lo with | none => true | some l => decide (l < k)) && Memory.rising (some k) rest

/-- The canonical form: addresses strictly rising and below 2^16, no entry equal to what an unlisted address reads as. -/
def Memory.wf (m : Memory) : Bool :=
  Memory.rising none m && m.all (fun c => decide (c.1 < 65536) && decide (c.2 ≠ Memory.unlisted))

/-- What the platform has at an address; `none` is unmapped (20_memory.md R64, R72). -/
def kindAt : List Region → Nat → Option RegionKind
  | [], _ => none
  | r :: rest, a => if r.base ≤ a ∧ a < r.base + r.size then some r.kind else kindAt rest a

/-- The byte memory holds at an address, whatever is mapped there. -/
def State.peek (s : State) (a : Word) : Byte := s.mem.read a.toNat

/-- The Address Space's answer to the next access: the next scripted one; with none scripted no wait states
(70_reset_and_hazards.md R302; log 6), no `set_line` call, and a free device byte (log 5). -/
def State.nextAnswer (s : State) : BusAnswer :=
  s.busAnswers.headD { wait := 0, deviceByte := Config.deviceByte s.busLog.length, lines := [] }

/-- The byte a read of `a` gives now: memory's from RAM and ROM, the device's from a device, `OPEN_BUS_FILL` where
nothing is mapped (20_memory.md R60, R64). -/
def State.busByte (s : State) (a : Word) : Byte :=
  match kindAt s.map a.toNat with
  | some .ram => s.peek a
  | some .rom => s.peek a
  | some .device => s.nextAnswer.deviceByte
  | none => s.cfg.openBusFill

/-- What every access leaves behind: its record (20_memory.md R63), its wait adjustment in `wait_acc` (R66), and the
`set_line` calls made inside it (R81). -/
def State.access (s : State) (kind : AccessKind) (a : Word) (v : Byte) : State :=
  { s with
    busLog := s.busLog ++ [{ kind := kind, addr := a, value := v, wait := s.nextAnswer.wait }]
    waitAcc := s.waitAcc + s.nextAnswer.wait
    busAnswers := s.busAnswers.tail
    lines := s.lines.setAll s.nextAnswer.lines }

/-- `MemRead(a, 1)` (20_memory.md R61): the byte and the state after the access. -/
def State.memRead (s : State) (a : Word) : Byte × State := (s.busByte a, s.access .read a (s.busByte a))

/-- What memory holds after a write: RAM takes it, anything else discards it (20_memory.md R64, 44_load_store.md R202). -/
def State.storedMem (s : State) (a : Word) (v : Byte) : Memory :=
  match kindAt s.map a.toNat with
  | some .ram => s.mem.write a.toNat v
  | some .rom => s.mem
  | some .device => s.mem
  | none => s.mem

/-- `MemWrite(a, 1, v)` (20_memory.md R62). -/
def State.memWrite (s : State) (a : Word) (v : Byte) : State := { s.access .write a v with mem := s.storedMem a v }

/-- `Fetch()` (30_encoding.md R94). -/
def State.fetch (s : State) : Byte × State :=
  let (v, t) := s.memRead s.pc
  (v, t.setPc (t.pc + 1))

/-- The fetches of `Decode()` (30_encoding.md R95): exactly `len` bytes in ascending order, the others 0. -/
def State.fetchInstr (s : State) : Fetched × State :=
  let (b0, s1) := s.fetch
  if lengthOf b0 = 1 then ({ ipc := s.pc, b0 := b0, b1 := 0, b2 := 0 }, s1)
  else
    let (b1, s2) := s1.fetch
    if lengthOf b0 = 2 then ({ ipc := s.pc, b0 := b0, b1 := b1, b2 := 0 }, s2)
    else
      let (b2, s3) := s2.fetch
      ({ ipc := s.pc, b0 := b0, b1 := b1, b2 := b2 }, s3)

/-! ## Cycles -/

/-- Charge an event that makes no bus access (40_execution_engine.md R130). -/
def State.spend (s : State) (n : Nat) : State := { s with icount := s.icount - n }

/-- Charge an instruction: its base cost and its wait adjustments (40_execution_engine.md R133, R135). -/
def State.charge (s : State) (cost : Nat) : State := { s with icount := s.icount - cost - s.waitAcc }

/-! ## Interrupt entry and return -/

/-- Clear the latch of the interrupt being dispatched; IRQ has none (60_exceptions.md R255). -/
def State.acknowledge (s : State) : Interrupt → State
  | .nmi => { s with lines := { s.lines with nmiPending := false } }
  | .irq => s

/-- `Dispatch(line)` (60_exceptions.md R255), in the order written there (log 11). -/
def State.dispatch (s : State) (k : Interrupt) : State :=
  let s := s.push s.pc
  let s := s.push (s.readF.setWidth 16)
  let s := s.setFlag .i false
  let s := { s with ishadow := false }
  let s := s.setHalted false
  let s := s.acknowledge k
  let s := s.setPc k.vector
  s.spend intCycles

/-- The inverse of `dispatch`, which is what `RETI` does but for its cost: pop F, then PC (46_system.md R234). -/
def State.returnFromInterrupt (s : State) : State :=
  let t := s.top
  let s := s.drop
  let s := s.setF (t.setWidth 8)
  let ret := s.top
  let s := s.drop
  s.setPc ret

/-! ## Reset -/

/-- `Reset()` (70_reset_and_hazards.md R281), in the order written there (log 20). -/
def State.performReset (s : State) : State :=
  let s :=
    { s with
      regs := { a := 0, b := 0, x := 0, y := 0 }
      f := 0
      spl := 0
      stk := Vector.replicate 8 0
      lines := { s.lines with nmiPending := false, resetPending := false }
      ishadow := false }
  let s := s.setHalted false
  let s := s.setPc resetVector
  s.spend resetCycles

/-! ## The illegal-opcode handler -/

/-- `Diag(IllegalOpcode, addr, opcode)` (10_state.md R42). -/
def State.diag (s : State) (addr : Word) (opcode : Byte) : State :=
  { s with diagLog := s.diagLog ++ [{ kind := .illegalOpcode, addr := addr, opcode := opcode }] }

/-- `IllegalOpcode(ipc, b0)` under either policy (46_system.md R235, R236); PC is past the whole instruction. -/
def State.illegalOpcode (s : State) (ipc : Word) (b0 : Byte) : State :=
  match s.cfg.illegalPolicy with
  | .nopContinue => State.charge { s.diag ipc b0 with ishadow := false } illegalCycles
  | .fatal => { (s.diag ipc b0).setPc ipc with faulted := true }

/-! ## The checkpoint -/

/-- IRQ can be serviced: asserted, enabled, not shadowed (40_execution_engine.md R132). -/
def State.irqServiceable (s : State) : Bool := s.lines.irqLevel == .asserted && s.flag .i && !s.ishadow

/-- `Checkpoint()` (40_execution_engine.md R132): RESET, then NMI, then IRQ, and at most one of them. -/
def State.checkpoint (s : State) : State :=
  if s.lines.resetPending then s.performReset
  else if s.lines.nmiPending then s.dispatch .nmi
  else if s.irqServiceable then s.dispatch .irq
  else s

end Sys2Proof.Machine
end

