-- ==== Sys2Proof/Machine/Flags.lean ====
section
/-! DEFINITION. The arithmetic flag logic: the helpers of spec/00_scope.md section 5 and the operations on A that the
instructions of 42_arithmetic.md and 43_logic_shift.md share. A helper is shared only by instructions whose equations are
the same (93_implementation_defined.md U9). -/

namespace Sys2Proof.Machine

/-- The result of an arithmetic helper: the byte, C and V. -/
structure AluResult where
  res : Byte
  c : Bool
  v : Bool
deriving DecidableEq, Repr

/-- `add8(a, b, cin)`: exact sum, then narrowed; C is the carry out of bit 7. -/
def add8 (a b : Byte) (cin : Bool) : AluResult :=
  let t : Nat := a.toNat + b.toNat + cin.toNat
  let r : Byte := BitVec.ofNat 8 t
  { res := r, c := decide (256 ≤ t), v := a.msb == b.msb && r.msb != a.msb }

/-- `sub8(a, b, bin)`: exact difference, then narrowed; C is the borrow. -/
def sub8 (a b : Byte) (bin : Bool) : AluResult :=
  let t : Int := (a.toNat : Int) - b.toNat - bin.toNat
  let r : Byte := BitVec.ofInt 8 t
  { res := r, c := decide (t < 0), v := a.msb != b.msb && r.msb != a.msb }

/-- `SetZS(r)`. -/
def State.setZS (s : State) (r : Byte) : State := (s.setFlag .z (r == 0)).setFlag .s r.msb

/-- C, Z, S and V from an arithmetic result (R161). -/
def State.setCZSV (s : State) (r : AluResult) : State := ((s.setFlag .c r.c).setZS r.res).setFlag .v r.v

/-- `A <- A + b + cin` with C, Z, S, V (R161, R163). -/
def State.aluAdd (s : State) (b : Byte) (cin : Bool) : State :=
  let r := add8 (s.reg .a) b cin
  (s.setReg .a r.res).setCZSV r

/-- `A <- A - b - bin` with C, Z, S, V (R165, R167). -/
def State.aluSub (s : State) (b : Byte) (bin : Bool) : State :=
  let r := sub8 (s.reg .a) b bin
  (s.setReg .a r.res).setCZSV r

/-- The flags of `A - b`; A is not written (R169). -/
def State.aluCmp (s : State) (b : Byte) : State := s.setCZSV (sub8 (s.reg .a) b false)

/-- `ADN`: the 8-bit sum, C the carry out of bit 3, Z; S and V stay (R171). -/
def State.aluAdn (s : State) (b : Byte) : State :=
  let a := s.reg .a
  let res : Byte := a + b
  let carry := decide (15 < (a.extractLsb' 0 4).toNat + (b.extractLsb' 0 4).toNat)
  ((s.setReg .a res).setFlag .c carry).setFlag .z (res == 0)

/-- A register takes a result that sets Z and S only: logic (R180), `INC` and `DEC` (R173, R174). -/
def State.putZS (s : State) (r : Reg) (res : Byte) : State := (s.setReg r res).setZS res

/-- A takes the result of a shift or rotation: C the bit shifted out, Z, S (R186 to R189). -/
def State.putShift (s : State) (res : Byte) (out : Bool) : State := ((s.setFlag .c out).setReg .a res).setZS res

end Sys2Proof.Machine
end

