-- ==== Sys2Proof/Machine/Arith.lean ====
section
/-! DEFINITION. Integer arithmetic (spec/42_arithmetic.md). Each meaning is the handler of one
instruction and its charge: it runs with PC already past the instruction and the interrupt shadow already cleared
(spec/40_execution_engine.md R133; log 24). -/

namespace Sys2Proof.Machine

/-- `ADD A,r` (R161). -/
def execAddR (r : Reg) (s : State) : Host.Outcome State Fault Refusal :=
  .next ((s.aluAdd (s.reg r) false).charge 1)

/-- `ADD A,#imm8` (R162). -/
def execAddI (imm8 : Byte) (s : State) : Host.Outcome State Fault Refusal :=
  .next ((s.aluAdd imm8 false).charge 2)

/-- `ADC A,r` (R163). -/
def execAdcR (r : Reg) (s : State) : Host.Outcome State Fault Refusal :=
  .next ((s.aluAdd (s.reg r) (s.flag .c)).charge 1)

/-- `ADC A,#imm8` (R164). -/
def execAdcI (imm8 : Byte) (s : State) : Host.Outcome State Fault Refusal :=
  .next ((s.aluAdd imm8 (s.flag .c)).charge 2)

/-- `SUB A,r` (R165). -/
def execSubR (r : Reg) (s : State) : Host.Outcome State Fault Refusal :=
  .next ((s.aluSub (s.reg r) false).charge 1)

/-- `SUB A,#imm8` (R166). -/
def execSubI (imm8 : Byte) (s : State) : Host.Outcome State Fault Refusal :=
  .next ((s.aluSub imm8 false).charge 2)

/-- `SBC A,r` (R167). -/
def execSbcR (r : Reg) (s : State) : Host.Outcome State Fault Refusal :=
  .next ((s.aluSub (s.reg r) (s.flag .c)).charge 1)

/-- `SBC A,#imm8` (R168). -/
def execSbcI (imm8 : Byte) (s : State) : Host.Outcome State Fault Refusal :=
  .next ((s.aluSub imm8 (s.flag .c)).charge 2)

/-- `CMP A,r` (R169). -/
def execCmpR (r : Reg) (s : State) : Host.Outcome State Fault Refusal :=
  .next ((s.aluCmp (s.reg r)).charge 1)

/-- `CMP A,#imm8` (R170). -/
def execCmpI (imm8 : Byte) (s : State) : Host.Outcome State Fault Refusal :=
  .next ((s.aluCmp imm8).charge 2)

/-- `ADN A,r` (R171). -/
def execAdnR (r : Reg) (s : State) : Host.Outcome State Fault Refusal :=
  .next ((s.aluAdn (s.reg r)).charge 1)

/-- `ADN A,#imm8` (R172). -/
def execAdnI (imm8 : Byte) (s : State) : Host.Outcome State Fault Refusal :=
  .next ((s.aluAdn imm8).charge 2)

/-- `INC r` (R173). -/
def execInc (r : Reg) (s : State) : Host.Outcome State Fault Refusal :=
  .next ((s.putZS r (s.reg r + 1)).charge 1)

/-- `DEC r` (R174). -/
def execDec (r : Reg) (s : State) : Host.Outcome State Fault Refusal :=
  .next ((s.putZS r (s.reg r - 1)).charge 1)

end Sys2Proof.Machine
end

