-- ==== Sys2Proof/Machine/Operands.lean ====
section
/-! DEFINITION. The operand forms: effective addresses (spec/44_load_store.md R200) and branch displacements
(30_encoding.md R98). Register and immediate operands need no computation (42_arithmetic.md R160). -/

namespace Sys2Proof.Machine

/-- Absolute addressing: `ea = a16`. -/
def absoluteEa (a16 : Word) : Word := a16

/-- Indexed addressing: `ea = (a16 + zext_16(X)) mod 2^16`, X unsigned and as it stands before the instruction. -/
def State.indexedEa (s : State) (a16 : Word) : Word := a16 + (s.reg .x).setWidth 16

/-- `disp = sext_16(rel8)`. -/
def displacement (rel8 : Byte) : Word := rel8.signExtend 16

/-- The common operation of the nine branches (45_control_transfer.md R211), its cost included: PC is already the address
of the instruction after the branch. -/
def State.branch (s : State) (cond : Bool) (rel8 : Byte) : State :=
  if cond then (s.setPc (s.pc + displacement rel8)).charge 3 else s.charge 2

/-- Load a register from memory (44_load_store.md R201, R203). -/
def State.loadReg (s : State) (r : Reg) (ea : Word) : State :=
  let (v, t) := s.memRead ea
  t.setReg r v

/-- Store a register to memory (44_load_store.md R202, R204). -/
def State.storeReg (s : State) (r : Reg) (ea : Word) : State := s.memWrite ea (s.reg r)

end Sys2Proof.Machine
end

