-- ==== Sys2Proof/Machine/Control.lean ====
section
/-! DEFINITION. Control transfer (spec/45_control_transfer.md). Each meaning is the handler of one
instruction and its charge: it runs with PC already past the instruction and the interrupt shadow already cleared
(spec/40_execution_engine.md R133; log 24). -/

namespace Sys2Proof.Machine

/-- `BRA rel8` (R212). -/
def execBra (rel8 : Byte) (s : State) : Host.Outcome State Fault Refusal :=
  .next (s.branch true rel8)

/-- `BEQ rel8` (R213). -/
def execBeq (rel8 : Byte) (s : State) : Host.Outcome State Fault Refusal :=
  .next (s.branch (s.flag .z) rel8)

/-- `BNE rel8` (R214). -/
def execBne (rel8 : Byte) (s : State) : Host.Outcome State Fault Refusal :=
  .next (s.branch (!s.flag .z) rel8)

/-- `BCS rel8` (R215). -/
def execBcs (rel8 : Byte) (s : State) : Host.Outcome State Fault Refusal :=
  .next (s.branch (s.flag .c) rel8)

/-- `BCC rel8` (R216). -/
def execBcc (rel8 : Byte) (s : State) : Host.Outcome State Fault Refusal :=
  .next (s.branch (!s.flag .c) rel8)

/-- `BMI rel8` (R217). -/
def execBmi (rel8 : Byte) (s : State) : Host.Outcome State Fault Refusal :=
  .next (s.branch (s.flag .s) rel8)

/-- `BPL rel8` (R218). -/
def execBpl (rel8 : Byte) (s : State) : Host.Outcome State Fault Refusal :=
  .next (s.branch (!s.flag .s) rel8)

/-- `BVS rel8` (R219). -/
def execBvs (rel8 : Byte) (s : State) : Host.Outcome State Fault Refusal :=
  .next (s.branch (s.flag .v) rel8)

/-- `BVC rel8` (R220). -/
def execBvc (rel8 : Byte) (s : State) : Host.Outcome State Fault Refusal :=
  .next (s.branch (!s.flag .v) rel8)

/-- `JMP a16` (R221). -/
def execJmp (a16 : Word) (s : State) : Host.Outcome State Fault Refusal :=
  .next ((s.setPc a16).charge 3)

/-- `CALL a16` (R222). -/
def execCall (a16 : Word) (s : State) : Host.Outcome State Fault Refusal :=
  .next (((s.push s.pc).setPc a16).charge 5)

/-- `RET` (R223). -/
def execRet (s : State) : Host.Outcome State Fault Refusal :=
  .next ((s.drop.setPc s.top).charge 3)

end Sys2Proof.Machine
end

