-- ==== Sys2Proof/Machine/DataMove.lean ====
section
/-! DEFINITION. Data movement between registers (spec/41_data_movement.md). Each meaning is the handler of one
instruction and its charge: it runs with PC already past the instruction and the interrupt shadow already cleared
(spec/40_execution_engine.md R133; log 24). -/

namespace Sys2Proof.Machine

/-- `MOV A,r` (R150). -/
def execMovAR (r : Reg) (s : State) : Host.Outcome State Fault Refusal :=
  .next ((s.setReg .a (s.reg r)).charge 1)

/-- `MOV r,A` (R151). -/
def execMovRA (r : Reg) (s : State) : Host.Outcome State Fault Refusal :=
  .next ((s.setReg r (s.reg .a)).charge 1)

/-- `LDI r,#imm8` (R152). -/
def execLdi (r : Reg) (imm8 : Byte) (s : State) : Host.Outcome State Fault Refusal :=
  .next ((s.setReg r imm8).charge 2)

/-- `TFA` (R153). -/
def execTfa (s : State) : Host.Outcome State Fault Refusal :=
  .next ((s.setReg .a s.readF).charge 1)

/-- `TAF` (R154); it sets no shadow. -/
def execTaf (s : State) : Host.Outcome State Fault Refusal :=
  .next ((s.setF (s.reg .a)).charge 1)

end Sys2Proof.Machine
end

