-- ==== Sys2Proof/Machine/LoadStore.lean ====
section
/-! DEFINITION. Loads and stores (spec/44_load_store.md). Each meaning is the handler of one
instruction and its charge: it runs with PC already past the instruction and the interrupt shadow already cleared
(spec/40_execution_engine.md R133; log 24). -/

namespace Sys2Proof.Machine

/-- `LD r,[a16]` (R201). -/
def execLd (r : Reg) (a16 : Word) (s : State) : Host.Outcome State Fault Refusal :=
  .next ((s.loadReg r (absoluteEa a16)).charge 4)

/-- `ST r,[a16]` (R202). -/
def execSt (r : Reg) (a16 : Word) (s : State) : Host.Outcome State Fault Refusal :=
  .next ((s.storeReg r (absoluteEa a16)).charge 4)

/-- `LD r,[a16+X]` (R203). -/
def execLdX (r : Reg) (a16 : Word) (s : State) : Host.Outcome State Fault Refusal :=
  .next ((s.loadReg r (s.indexedEa a16)).charge 5)

/-- `ST r,[a16+X]` (R204). -/
def execStX (r : Reg) (a16 : Word) (s : State) : Host.Outcome State Fault Refusal :=
  .next ((s.storeReg r (s.indexedEa a16)).charge 5)

end Sys2Proof.Machine
end

