-- ==== Sys2Proof/Machine/Logic.lean ====
section
/-! DEFINITION. Logic, shifts, rotations and carry control (spec/43_logic_shift.md). Each meaning is the handler of one
instruction and its charge: it runs with PC already past the instruction and the interrupt shadow already cleared
(spec/40_execution_engine.md R133; log 24). -/

namespace Sys2Proof.Machine

/-- `AND A,r` (R180). -/
def execAndR (r : Reg) (s : State) : Host.Outcome State Fault Refusal :=
  .next ((s.putZS .a (s.reg .a &&& (s.reg r))).charge 1)

/-- `AND A,#imm8` (R181). -/
def execAndI (imm8 : Byte) (s : State) : Host.Outcome State Fault Refusal :=
  .next ((s.putZS .a (s.reg .a &&& imm8)).charge 2)

/-- `OR A,r` (R182). -/
def execOrR (r : Reg) (s : State) : Host.Outcome State Fault Refusal :=
  .next ((s.putZS .a (s.reg .a ||| (s.reg r))).charge 1)

/-- `OR A,#imm8` (R183). -/
def execOrI (imm8 : Byte) (s : State) : Host.Outcome State Fault Refusal :=
  .next ((s.putZS .a (s.reg .a ||| imm8)).charge 2)

/-- `XOR A,r` (R184). -/
def execXorR (r : Reg) (s : State) : Host.Outcome State Fault Refusal :=
  .next ((s.putZS .a (s.reg .a ^^^ (s.reg r))).charge 1)

/-- `XOR A,#imm8` (R185). -/
def execXorI (imm8 : Byte) (s : State) : Host.Outcome State Fault Refusal :=
  .next ((s.putZS .a (s.reg .a ^^^ imm8)).charge 2)

/-- `SHL` (R186). -/
def execShl (s : State) : Host.Outcome State Fault Refusal :=
  .next ((s.putShift (s.reg .a <<< 1) ((s.reg .a).getLsbD 7)).charge 1)

/-- `SHR` (R187). -/
def execShr (s : State) : Host.Outcome State Fault Refusal :=
  .next ((s.putShift (s.reg .a >>> 1) ((s.reg .a).getLsbD 0)).charge 1)

/-- `ROL` (R188): a rotation of nine bits, C the ninth. -/
def execRol (s : State) : Host.Outcome State Fault Refusal :=
  .next ((s.putShift (putBit (s.reg .a <<< 1) 0 (s.flag .c)) ((s.reg .a).getLsbD 7)).charge 1)

/-- `ROR` (R189): a rotation of nine bits, C the ninth. -/
def execRor (s : State) : Host.Outcome State Fault Refusal :=
  .next ((s.putShift (putBit (s.reg .a >>> 1) 7 (s.flag .c)) ((s.reg .a).getLsbD 0)).charge 1)

/-- `CLC` (R190). -/
def execClc (s : State) : Host.Outcome State Fault Refusal :=
  .next ((s.setFlag .c false).charge 1)

/-- `SEC` (R191). -/
def execSec (s : State) : Host.Outcome State Fault Refusal :=
  .next ((s.setFlag .c true).charge 1)

end Sys2Proof.Machine
end

