-- ==== Sys2Proof/Machine/System.lean ====
section
/-! DEFINITION. System instructions (spec/46_system.md); all are unprivileged (60_exceptions.md R265). Each meaning is the handler of one
instruction and its charge: it runs with PC already past the instruction and the interrupt shadow already cleared
(spec/40_execution_engine.md R133; log 24). -/

namespace Sys2Proof.Machine

/-- `NOP` (R230). -/
def execNop (s : State) : Host.Outcome State Fault Refusal :=
  .next (s.charge 1)

/-- `HLT` (R231). -/
def execHlt (s : State) : Host.Outcome State Fault Refusal :=
  .next ((s.setHalted true).charge 1)

/-- `DI` (R232). -/
def execDi (s : State) : Host.Outcome State Fault Refusal :=
  .next ((s.setFlag .i false).charge 1)

/-- `EI` (R233): the one instruction that leaves the shadow set. -/
def execEi (s : State) : Host.Outcome State Fault Refusal :=
  .next (State.charge { s.setFlag .i true with ishadow := true } 1)

/-- `RETI` (R234); it sets no shadow. -/
def execReti (s : State) : Host.Outcome State Fault Refusal :=
  .next (s.returnFromInterrupt.charge 4)

end Sys2Proof.Machine
end

