-- ==== Sys2Proof/Machine/Dispatch.lean ====
section
/-! DEFINITION. The dispatch: one arm per constructor of `Instr`, in the order of spec/opcode_table.json. -/

namespace Sys2Proof.Machine

/-- The meaning of an instruction: its handler and its charge, PC already past it (log 24). -/
def exec (i : Instr) (s : State) : Host.Outcome State Fault Refusal :=
  match i with
  | .nop => Sys2Proof.Machine.execNop s
  | .hlt => Sys2Proof.Machine.execHlt s
  | .ret => Sys2Proof.Machine.execRet s
  | .reti => Sys2Proof.Machine.execReti s
  | .ei => Sys2Proof.Machine.execEi s
  | .di => Sys2Proof.Machine.execDi s
  | .clc => Sys2Proof.Machine.execClc s
  | .sec => Sys2Proof.Machine.execSec s
  | .movAR r => Sys2Proof.Machine.execMovAR r s
  | .movRA r => Sys2Proof.Machine.execMovRA r s
  | .addR r => Sys2Proof.Machine.execAddR r s
  | .adcR r => Sys2Proof.Machine.execAdcR r s
  | .subR r => Sys2Proof.Machine.execSubR r s
  | .sbcR r => Sys2Proof.Machine.execSbcR r s
  | .andR r => Sys2Proof.Machine.execAndR r s
  | .orR r => Sys2Proof.Machine.execOrR r s
  | .xorR r => Sys2Proof.Machine.execXorR r s
  | .cmpR r => Sys2Proof.Machine.execCmpR r s
  | .adnR r => Sys2Proof.Machine.execAdnR r s
  | .inc r => Sys2Proof.Machine.execInc r s
  | .dec r => Sys2Proof.Machine.execDec r s
  | .shl => Sys2Proof.Machine.execShl s
  | .shr => Sys2Proof.Machine.execShr s
  | .rol => Sys2Proof.Machine.execRol s
  | .ror => Sys2Proof.Machine.execRor s
  | .tfa => Sys2Proof.Machine.execTfa s
  | .taf => Sys2Proof.Machine.execTaf s
  | .ldi r imm8 => Sys2Proof.Machine.execLdi r imm8 s
  | .addI imm8 => Sys2Proof.Machine.execAddI imm8 s
  | .adcI imm8 => Sys2Proof.Machine.execAdcI imm8 s
  | .subI imm8 => Sys2Proof.Machine.execSubI imm8 s
  | .sbcI imm8 => Sys2Proof.Machine.execSbcI imm8 s
  | .andI imm8 => Sys2Proof.Machine.execAndI imm8 s
  | .orI imm8 => Sys2Proof.Machine.execOrI imm8 s
  | .xorI imm8 => Sys2Proof.Machine.execXorI imm8 s
  | .cmpI imm8 => Sys2Proof.Machine.execCmpI imm8 s
  | .adnI imm8 => Sys2Proof.Machine.execAdnI imm8 s
  | .bra rel8 => Sys2Proof.Machine.execBra rel8 s
  | .beq rel8 => Sys2Proof.Machine.execBeq rel8 s
  | .bne rel8 => Sys2Proof.Machine.execBne rel8 s
  | .bcs rel8 => Sys2Proof.Machine.execBcs rel8 s
  | .bcc rel8 => Sys2Proof.Machine.execBcc rel8 s
  | .bmi rel8 => Sys2Proof.Machine.execBmi rel8 s
  | .bpl rel8 => Sys2Proof.Machine.execBpl rel8 s
  | .bvs rel8 => Sys2Proof.Machine.execBvs rel8 s
  | .bvc rel8 => Sys2Proof.Machine.execBvc rel8 s
  | .ld r a16 => Sys2Proof.Machine.execLd r a16 s
  | .st r a16 => Sys2Proof.Machine.execSt r a16 s
  | .ldX r a16 => Sys2Proof.Machine.execLdX r a16 s
  | .stX r a16 => Sys2Proof.Machine.execStX r a16 s
  | .jmp a16 => Sys2Proof.Machine.execJmp a16 s
  | .call a16 => Sys2Proof.Machine.execCall a16 s

end Sys2Proof.Machine
end

