-- ==== Sys2Proof/Machine/Engine.lean ====
section
/-! DEFINITION. The Execution Engine (spec/40_execution_engine.md): one instruction, one iteration of the loop, and
`execute_run`. -/

namespace Sys2Proof.Machine

/-- The rest of `ExecOne()` once the bytes are fetched: the dispatch table, then the illegal-opcode handler or, with the
shadow cleared, the instruction (R133, R134). -/
def runFetched (d : Fetched) (s : State) : Host.Outcome State Fault Refusal :=
  match lookup d.b0 d.b1 d.b2 with
  | none => .next (s.illegalOpcode d.ipc d.b0)
  | some i => exec i { s with ishadow := false }

/-- `ExecOne()` (R133). -/
def execOne (s : State) : Host.Outcome State Fault Refusal :=
  runFetched (State.fetchInstr { s with waitAcc := 0 }).1 (State.fetchInstr { s with waitAcc := 0 }).2

/-- The part of an iteration after its checkpoint: idle cycles while halted (R136), else one instruction. -/
def afterCheckpoint (s : State) : Host.Outcome State Fault Refusal :=
  if s.halted then .next { s with icount := 0 } else execOne s

/-- One iteration of the loop of R128: a checkpoint, then one whole instruction or the rest of the budget as idle
cycles. -/
def iteration (s : State) : Host.Outcome State Fault Refusal := afterCheckpoint s.checkpoint

/-- The loop of R128, for at most `fuel` iterations. Every iteration charges at least one cycle, ends the budget or faults,
so a fuel of the budget is enough (log 21). -/
def runLoop : Nat → State → Host.Outcome State Fault Refusal
  | 0, s => .next s
  | fuel + 1, s =>
    if s.icount ≤ 0 ∨ s.faulted = true then .next s
    else
      match iteration s with
      | .next t => runLoop fuel t
      | .fault e => .fault e
      | .refused e => .refused e

/-- `execute_run(budget)` (R128, R129, R137): the cycles consumed and the state afterwards. -/
def executeRun (budget : Int) (s : State) : Host.Outcome (Int × State) Fault Refusal :=
  if s.faulted then .next (max budget 0, s)
  else if budget ≤ 0 then .next (0, s)
  else
    match runLoop budget.toNat { s with icount := budget } with
    | .next t => .next (budget - t.icount, t)
    | .fault e => .fault e
    | .refused e => .refused e

/-- The state after `execute_run(budget)`. -/
def afterRun (budget : Int) (s : State) : Host.Outcome State Fault Refusal :=
  match executeRun budget s with
  | .next (_, t) => .next t
  | .fault e => .fault e
  | .refused e => .refused e

end Sys2Proof.Machine
end

