-- ==== Sys2Proof/Machine/HostOps.lean ====
section
/-! DEFINITION. The host's operations beside `execute_run` (spec/00_scope.md R11): `device_start`, `device_reset`,
`set_line`, `state_get`, `state_set`, and the numbers by which the outside names lines and keys. -/

namespace Sys2Proof.Machine

/-- The line a `line_id` names: 0, 1, 2 and no other (60_exceptions.md R241). -/
def lineOfId : Nat → Option Line
  | 0 => some .irq
  | 1 => some .nmi
  | 2 => some .reset
  | _ => none

/-- The index of a key (10_state.md R48). -/
def keyIndex : StateKey → Nat
  | .pc => 0
  | .f => 1
  | .a => 2
  | .b => 3
  | .x => 4
  | .y => 5
  | .spl => 6
  | .stk k => 8 + k.val
  | .nmip => 16
  | .ishadow => 17
  | .halted => 18

/-- The key an index names; index 7 and every index above 18 name none (10_state.md R48). -/
def keyOfIndex (n : Nat) : Option StateKey :=
  if h : 8 ≤ n ∧ n < 16 then some (.stk ⟨n - 8, by omega⟩)
  else match n with
    | 0 => some .pc
    | 1 => some .f
    | 2 => some .a
    | 3 => some .b
    | 4 => some .x
    | 5 => some .y
    | 6 => some .spl
    | 16 => some .nmip
    | 17 => some .ishadow
    | 18 => some .halted
    | _ => none

/-- The mask of a key (10_state.md R48). -/
def keyMask : StateKey → Nat
  | .pc => 0xFFFF
  | .f => 0x1F
  | .a => 0xFF
  | .b => 0xFF
  | .x => 0xFF
  | .y => 0xFF
  | .spl => 0x07
  | .stk _ => 0xFFFF
  | .nmip => 0x01
  | .ishadow => 0x01
  | .halted => 0x01

/-- The width of a key in bits (10_state.md R48). -/
def keyWidth : StateKey → Nat
  | .pc => 16
  | .f => 8
  | .a => 8
  | .b => 8
  | .x => 8
  | .y => 8
  | .spl => 3
  | .stk _ => 16
  | .nmip => 1
  | .ishadow => 1
  | .halted => 1

/-- The symbolic name of a key (10_state.md R48). -/
def keyName : StateKey → String
  | .pc => "PC"
  | .f => "F"
  | .a => "A"
  | .b => "B"
  | .x => "X"
  | .y => "Y"
  | .spl => "SPL"
  | .stk k => "STK" ++ toString k.val
  | .nmip => "NMIP"
  | .ishadow => "ISHADOW"
  | .halted => "HALTED"

/-- The canonical column of 10_state.md R48: false is no-show, a latch of the implementation and no register. -/
def keyCanonical : StateKey → Bool
  | .pc => true
  | .f => true
  | .a => true
  | .b => true
  | .x => true
  | .y => true
  | .spl => true
  | .stk _ => true
  | .nmip => false
  | .ishadow => false
  | .halted => false

/-- `state_get(index)`: the projected item, zero-extended; nothing changes (10_state.md R49). -/
def State.stateGet (s : State) : StateKey → Nat
  | .pc => s.pc.toNat
  | .f => s.readF.toNat
  | .a => (s.reg .a).toNat
  | .b => (s.reg .b).toNat
  | .x => (s.reg .x).toNat
  | .y => (s.reg .y).toNat
  | .spl => s.spl.toNat
  | .stk k => s.stk[k].toNat
  | .nmip => s.lines.nmiPending.toNat
  | .ishadow => s.ishadow.toNat
  | .halted => s.halted.toNat

/-- `state_set(index, value)`: the masked value is stored (10_state.md R50), with the side effects of R51: a write of PC
clears the shadow, a write of HALTED drives HALTACK. -/
def State.stateSet (s : State) (key : StateKey) (value : Nat) : State :=
  let v := value &&& keyMask key
  match key with
  | .pc => { s.setPc (BitVec.ofNat 16 v) with ishadow := false }
  | .f => s.setF (BitVec.ofNat 8 v)
  | .a => s.setReg .a (BitVec.ofNat 8 v)
  | .b => s.setReg .b (BitVec.ofNat 8 v)
  | .x => s.setReg .x (BitVec.ofNat 8 v)
  | .y => s.setReg .y (BitVec.ofNat 8 v)
  | .spl => { s with spl := BitVec.ofNat 3 v }
  | .stk k => { s with stk := s.stk.set k.val (BitVec.ofNat 16 v) k.isLt }
  | .nmip => { s with lines := { s.lines with nmiPending := v == 1 } }
  | .ishadow => { s with ishadow := v == 1 }
  | .halted => s.setHalted (v == 1)

/-- `device_start()` (70_reset_and_hazards.md R280): a configuration error, or a core bound to its surroundings whose
registers, `nmi_pending`, `ishadow` and `halted` have no values yet (10_state.md R57; log 10, 22). -/
def deviceStart (addrBits : Nat) (cfg : Config) (outside : Surroundings) : Except ConfigError Started :=
  match configError addrBits outside.map with
  | some e => .error e
  | none => .ok
    { irqLevel := .cleared
      nmiLevel := .cleared
      resetLevel := .cleared
      nmiPending := none
      resetPending := false
      faulted := false
      diagLog := []
      haltack := false
      cfg := cfg
      outside := outside }

/-- `set_line` before the first reset (60_exceptions.md R243; 70_reset_and_hazards.md R285): an edge gives `nmi_pending` the
value 1, and without one it keeps what it had, a value or none. -/
def Started.setLine (t : Started) (c : LineCall) : Started :=
  match c.line with
  | .irq => { t with irqLevel := c.level }
  | .nmi =>
    { t with
      nmiPending := if risingEdge t.nmiLevel c.level then some true else t.nmiPending
      nmiLevel := c.level }
  | .reset =>
    { t with
      resetPending := t.resetPending || risingEdge t.resetLevel c.level
      resetLevel := c.level }

/-- Several calls of `set_line` before the first reset, in order. -/
def Started.setLines (t : Started) (cs : List LineCall) : Started := cs.foldl Started.setLine t

/-- The first `device_reset` (70_reset_and_hazards.md R282): the one procedure `Reset()`, on a core whose level of HALTACK is
the known one and whose registers, `nmi_pending` and `ishadow`, which have no value, are all overwritten by it. -/
def Started.deviceReset (t : Started) : State :=
  State.performReset
    { State.reset with
      lines :=
        { irqLevel := t.irqLevel
          nmiLevel := t.nmiLevel
          resetLevel := t.resetLevel
          nmiPending := t.nmiPending.getD false
          resetPending := t.resetPending }
      halted := t.haltack
      faulted := t.faulted
      diagLog := t.diagLog
      cfg := t.cfg
      map := t.outside.map
      mem := t.outside.mem
      busAnswers := t.outside.busAnswers
      haltackAnswers := t.outside.haltackAnswers
      script := t.outside.script }

/-- Every later `device_reset`, called while the Engine is Idle (70_reset_and_hazards.md R282, R284). -/
def State.deviceReset (s : State) : State := s.performReset

/-- One operation of the host while the Engine is Idle. -/
def State.perform (s : State) : HostOp → State
  | .setLine c => s.setLine c
  | .stateSet key value => s.stateSet key value
  | .deviceReset => s.deviceReset

/-- Several operations of the host, in order. -/
def State.performAll (s : State) (ops : List HostOp) : State := ops.foldl State.perform s

end Sys2Proof.Machine
end

