-- ==== Sys2Proof/Machine/Step.lean ====
section
/-! DEFINITION. One step of the machine is one turn of the scheduler (log 7): the next scripted quantum, or, with nothing
scripted, the single step `execute_run(1)` of spec/60_exceptions.md R274, which runs exactly one instruction. -/

namespace Sys2Proof.Machine

/-- One turn of the scheduler. -/
def step (s : State) : Host.Outcome State Fault Refusal :=
  match s.script with
  | [] => afterRun 1 s
  | q :: rest => afterRun q.budget (State.performAll { s with script := rest } q.ops)

/-- Put a byte where a fetch at `a` reads it: the byte in memory, and a row of RAM before the map where the platform has no
memory at `a`. -/
def State.placeByte (s : State) (a : Word) (v : Byte) : State :=
  { s with
    mem := s.mem.write a.toNat v
    map :=
      match kindAt s.map a.toNat with
      | some .ram => s.map
      | some .rom => s.map
      | some .device => { base := a.toNat, size := 1, kind := .ram } :: s.map
      | none => { base := a.toNat, size := 1, kind := .ram } :: s.map }

/-- The state with the instruction whose bits are the low `nbits` of `w` placed where the next step fetches: three bytes at
PC. Whatever would keep the next step from fetching there is taken away: scripted quanta, Halted, Faulted, requests that
the checkpoint would serve. At State.reset none of these is there (log 8). -/
def State.withFetchWord (s : State) (nbits w : Nat) : State :=
  let v := w % 2 ^ nbits
  let s := s.placeByte s.pc (BitVec.ofNat 8 v)
  let s := s.placeByte (s.pc + 1) (BitVec.ofNat 8 (v / 256))
  let s := s.placeByte (s.pc + 2) (BitVec.ofNat 8 (v / 65536))
  { s with
    script := []
    halted := false
    faulted := false
    lines :=
      { s.lines with
        resetPending := false
        nmiPending := false
        irqLevel := if s.irqServiceable then .cleared else s.lines.irqLevel } }

end Sys2Proof.Machine
end

