-- ==== Sys2Proof/Safety.lean ====
section
/-! DEFINITION. The terms in which claims about the machine are stated: the invariant of every reachable state, what an
instruction may write according to the spec's tables, the cycle table, the accounting of a run, and the shapes of the
instructions' results. -/

namespace Sys2Proof.Machine

/-! ## The invariant -/

/-- What every step keeps: the hardwired bits of F are 0 (spec/10_state.md R26), memory is in canonical form, and the level
last reported to the HALTACK callback is `halted` (60_exceptions.md R270). -/
structure State.Inv (s : State) : Prop where
  flagBits : s.f &&& 0xE0 = 0
  memory : s.mem.wf = true
  haltack : s.haltackLog.getLastD false = s.halted

/-- The platform has memory, not a device and not nothing, at an address. -/
def State.backed (s : State) (a : Word) : Bool :=
  match kindAt s.map a.toNat with
  | some .ram => true
  | some .rom => true
  | some .device => false
  | none => false

/-- No request that the checkpoint would serve (40_execution_engine.md R132). -/
def State.quiet (s : State) : Bool := !s.lines.resetPending && !s.lines.nmiPending && !s.irqServiceable

/-- The core runs an instruction next: nothing scripted, not faulted, not halted, nothing to serve. -/
def State.running (s : State) : Bool := s.script.isEmpty && !s.faulted && !s.halted && s.quiet

/-- The state in which the single step begins its instruction: a budget of one cycle, no wait states yet. -/
def State.atFetch (s : State) : State := { s with icount := 1, waitAcc := 0 }

/-! ## What an instruction may write -/

/-- The flags an instruction writes (10_state.md R27). -/
def writesFlag : Instr → Flag → Bool
  | .addR _, fl | .addI _, fl | .adcR _, fl | .adcI _, fl | .subR _, fl | .subI _, fl | .sbcR _, fl | .sbcI _, fl
  | .cmpR _, fl | .cmpI _, fl => fl != .i
  | .adnR _, fl | .adnI _, fl => fl == .c || fl == .z
  | .andR _, fl | .andI _, fl | .orR _, fl | .orI _, fl | .xorR _, fl | .xorI _, fl | .inc _, fl | .dec _, fl =>
    fl == .z || fl == .s
  | .shl, fl | .shr, fl | .rol, fl | .ror, fl => fl == .c || fl == .z || fl == .s
  | .clc, fl | .sec, fl => fl == .c
  | .ei, fl | .di, fl => fl == .i
  | .taf, _ | .reti, _ => true
  | .nop, _ | .hlt, _ | .ret, _ | .movAR _, _ | .movRA _, _ | .tfa, _ | .ldi _ _, _ | .bra _, _ | .beq _, _
  | .bne _, _ | .bcs _, _ | .bcc _, _ | .bmi _, _ | .bpl _, _ | .bvs _, _ | .bvc _, _ | .ld _ _, _ | .st _ _, _
  | .ldX _ _, _ | .stX _ _, _ | .jmp _, _ | .call _, _ => false

/-- The general register an instruction writes, if it writes one (10_state.md R22). -/
def writesReg : Instr → Option Reg
  | .movAR _ | .tfa | .addR _ | .addI _ | .adcR _ | .adcI _ | .subR _ | .subI _ | .sbcR _ | .sbcI _ | .adnR _ | .adnI _
  | .andR _ | .andI _ | .orR _ | .orI _ | .xorR _ | .xorI _ | .shl | .shr | .rol | .ror => some .a
  | .movRA r | .inc r | .dec r | .ldi r _ | .ld r _ | .ldX r _ => some r
  | .nop | .hlt | .ret | .reti | .ei | .di | .clc | .sec | .cmpR _ | .cmpI _ | .taf | .bra _ | .beq _ | .bne _ | .bcs _
  | .bcc _ | .bmi _ | .bpl _ | .bvs _ | .bvc _ | .st _ _ | .stX _ _ | .jmp _ | .call _ => none

/-- The instructions that may load PC with something other than the address of the next instruction
(45_control_transfer.md; `RETI` of 46_system.md). -/
def transfersControl : Instr → Bool
  | .bra _ | .beq _ | .bne _ | .bcs _ | .bcc _ | .bmi _ | .bpl _ | .bvs _ | .bvc _ | .jmp _ | .call _ | .ret | .reti => true
  | .nop | .hlt | .ei | .di | .clc | .sec | .movAR _ | .movRA _ | .addR _ | .addI _ | .adcR _ | .adcI _ | .subR _ | .subI _
  | .sbcR _ | .sbcI _ | .andR _ | .andI _ | .orR _ | .orI _ | .xorR _ | .xorI _ | .cmpR _ | .cmpI _ | .adnR _ | .adnI _
  | .inc _ | .dec _ | .shl | .shr | .rol | .ror | .tfa | .taf | .ldi _ _ | .ld _ _ | .st _ _ | .ldX _ _ | .stX _ _ => false

/-- The data accesses of an instruction, in order, after its fetches (20_memory.md R80). -/
def dataAccesses (s : State) : Instr → List (AccessKind × Word)
  | .ld _ a16 => [(.read, absoluteEa a16)]
  | .st _ a16 => [(.write, absoluteEa a16)]
  | .ldX _ a16 => [(.read, s.indexedEa a16)]
  | .stX _ a16 => [(.write, s.indexedEa a16)]
  | .nop | .hlt | .ret | .reti | .ei | .di | .clc | .sec | .movAR _ | .movRA _ | .addR _ | .addI _ | .adcR _ | .adcI _
  | .subR _ | .subI _ | .sbcR _ | .sbcI _ | .andR _ | .andI _ | .orR _ | .orI _ | .xorR _ | .xorI _ | .cmpR _ | .cmpI _
  | .adnR _ | .adnI _ | .inc _ | .dec _ | .shl | .shr | .rol | .ror | .tfa | .taf | .ldi _ _ | .bra _ | .beq _ | .bne _
  | .bcs _ | .bcc _ | .bmi _ | .bpl _ | .bvs _ | .bvc _ | .jmp _ | .call _ => []

/-! ## Cycles -/

/-- The base cycle cost of an instruction (70_reset_and_hazards.md R301); a conditional branch costs 3 when taken and 2
when not. -/
def baseCycles (s : State) : Instr → Nat
  | .nop | .hlt | .ei | .di | .clc | .sec | .movAR _ | .movRA _ | .tfa | .taf => 1
  | .addR _ | .adcR _ | .subR _ | .sbcR _ | .andR _ | .orR _ | .xorR _ | .cmpR _ | .adnR _ => 1
  | .inc _ | .dec _ | .shl | .shr | .rol | .ror => 1
  | .ret => 3
  | .reti => 4
  | .ldi _ _ | .addI _ | .adcI _ | .subI _ | .sbcI _ | .andI _ | .orI _ | .xorI _ | .cmpI _ | .adnI _ => 2
  | .bra _ => 3
  | .beq _ => if s.flag .z then 3 else 2
  | .bne _ => if s.flag .z then 2 else 3
  | .bcs _ => if s.flag .c then 3 else 2
  | .bcc _ => if s.flag .c then 2 else 3
  | .bmi _ => if s.flag .s then 3 else 2
  | .bpl _ => if s.flag .s then 2 else 3
  | .bvs _ => if s.flag .v then 3 else 2
  | .bvc _ => if s.flag .v then 2 else 3
  | .ld _ _ | .st _ _ => 4
  | .ldX _ _ | .stX _ _ => 5
  | .jmp _ => 3
  | .call _ => 5

/-- The wait adjustments of the accesses that `t` has recorded beyond those of `s`. -/
def waitsBetween (s t : State) : Nat := ((t.busLog.drop s.busLog.length).map BusAccess.wait).sum

/-- The cycles an instruction fetched at `c` is to be charged, `t` the state after it (40_execution_engine.md R138): its
base cost or `ILLEGAL_CYCLES`, and its wait adjustments; nothing under `Fatal`. -/
def instructionCycles (c t : State) : Int :=
  let d := (State.fetchInstr { c with waitAcc := 0 }).1
  match lookup d.b0 d.b1 d.b2 with
  | some i => baseCycles c i + waitsBetween c t
  | none =>
    match c.cfg.illegalPolicy with
    | .nopContinue => 2 + waitsBetween c t
    | .fatal => 0

/-- The cycles of one iteration that begins in `s` and ends in `t` (40_execution_engine.md R138): 6 for a dispatch, none
for a reset, then the instruction or the rest of the budget. -/
def iterationCycles (s t : State) : Int :=
  let entry : Int :=
    if s.lines.resetPending then 0
    else if s.lines.nmiPending || s.irqServiceable then 6
    else 0
  if s.checkpoint.halted then s.icount else entry + instructionCycles s.checkpoint t

/-- The pairs (state before, state after) of the iterations of the loop of R128. -/
def iterations : Nat → State → List (State × State)
  | 0, _ => []
  | fuel + 1, s =>
    if s.icount ≤ 0 ∨ s.faulted = true then []
    else
      match iteration s with
      | .next t => (s, t) :: iterations fuel t
      | .fault _ => []
      | .refused _ => []

/-- A state without anything that only measures time: cycle counter, wait adjustments made and to come. -/
def State.untimed (s : State) : State :=
  { s with
    icount := 0
    waitAcc := 0
    busAnswers := s.busAnswers.map (fun a => { a with wait := 0 })
    busLog := s.busLog.map (fun x => { x with wait := 0 }) }

/-! ## The shapes of results -/

/-- `i` completes from `s`, adding `b` and `cin` to A at the given cost: the sum, C its carry out of bit 7, Z and S of the
result, V when the exact signed sum lies outside -128 to 127; I and everything else stay. -/
def Adds (i : Instr) (s : State) (b : Byte) (cin : Bool) (cost : Nat) : Prop :=
  ∃ t, exec i s = .next t ∧
    t.reg .a = BitVec.ofNat 8 ((s.reg .a).toNat + b.toNat + cin.toNat) ∧
    t.flag .c = decide (255 < (s.reg .a).toNat + b.toNat + cin.toNat) ∧
    t.flag .z = decide ((t.reg .a).toNat = 0) ∧
    t.flag .s = decide (128 ≤ (t.reg .a).toNat) ∧
    t.flag .v = decide ((s.reg .a).toInt + b.toInt + cin.toNat < -128 ∨ 127 < (s.reg .a).toInt + b.toInt + cin.toNat) ∧
    t.flag .i = s.flag .i ∧
    t.f &&& 0xE0 = 0 ∧
    t = { s with regs := s.regs.set .a (t.reg .a), f := t.f, icount := s.icount - cost - s.waitAcc }

/-- The flags of `A - b - bin` in `t`: C the borrow, Z and S of the difference, V when the exact signed difference lies
outside -128 to 127; I stays. -/
def SubFlags (s t : State) (b : Byte) (bin : Bool) : Prop :=
  let diff : Byte := BitVec.ofInt 8 ((s.reg .a).toNat - b.toNat - bin.toNat)
  t.flag .c = decide ((s.reg .a).toNat < b.toNat + bin.toNat) ∧
    t.flag .z = decide (diff.toNat = 0) ∧
    t.flag .s = decide (128 ≤ diff.toNat) ∧
    t.flag .v = decide ((s.reg .a).toInt - b.toInt - bin.toNat < -128 ∨ 127 < (s.reg .a).toInt - b.toInt - bin.toNat) ∧
    t.flag .i = s.flag .i ∧
    t.f &&& 0xE0 = 0

/-- `i` completes from `s`, subtracting `b` and `bin` from A. -/
def Subtracts (i : Instr) (s : State) (b : Byte) (bin : Bool) (cost : Nat) : Prop :=
  ∃ t, exec i s = .next t ∧
    t.reg .a = BitVec.ofInt 8 ((s.reg .a).toNat - b.toNat - bin.toNat) ∧
    SubFlags s t b bin ∧
    t = { s with regs := s.regs.set .a (t.reg .a), f := t.f, icount := s.icount - cost - s.waitAcc }

/-- `i` completes from `s` with the flags of `A - b`; A stays. -/
def Compares (i : Instr) (s : State) (b : Byte) (cost : Nat) : Prop :=
  ∃ t, exec i s = .next t ∧
    SubFlags s t b false ∧
    t = { s with f := t.f, icount := s.icount - cost - s.waitAcc }

/-- `i` completes from `s` as `ADN`: the 8-bit sum, C the carry out of bit 3, Z; S, V, I and everything else stay. -/
def AddsNibble (i : Instr) (s : State) (b : Byte) (cost : Nat) : Prop :=
  ∃ t, exec i s = .next t ∧
    t.reg .a = BitVec.ofNat 8 ((s.reg .a).toNat + b.toNat) ∧
    t.flag .c = decide (15 < (s.reg .a).toNat % 16 + b.toNat % 16) ∧
    t.flag .z = decide ((t.reg .a).toNat = 0) ∧
    t.flag .s = s.flag .s ∧
    t.flag .v = s.flag .v ∧
    t.flag .i = s.flag .i ∧
    t.f &&& 0xE0 = 0 ∧
    t = { s with regs := s.regs.set .a (t.reg .a), f := t.f, icount := s.icount - cost - s.waitAcc }

/-- `i` completes from `s`, register `r` taking `res`, Z and S following it; C, V, I and everything else stay. -/
def PutsZS (i : Instr) (s : State) (r : Reg) (res : Byte) (cost : Nat) : Prop :=
  ∃ t, exec i s = .next t ∧
    t.flag .z = decide (res.toNat = 0) ∧
    t.flag .s = decide (128 ≤ res.toNat) ∧
    t.flag .c = s.flag .c ∧
    t.flag .v = s.flag .v ∧
    t.flag .i = s.flag .i ∧
    t.f &&& 0xE0 = 0 ∧
    t = { s with regs := s.regs.set r res, f := t.f, icount := s.icount - cost - s.waitAcc }

/-- `i` completes from `s` as a shift or rotation of A to the value `res` with `out` shifted into C; V, I and everything
else stay. -/
def Shifts (i : Instr) (s : State) (res : Nat) (out : Bool) : Prop :=
  ∃ t, exec i s = .next t ∧
    t.reg .a = BitVec.ofNat 8 res ∧
    t.flag .c = out ∧
    t.flag .z = decide ((t.reg .a).toNat = 0) ∧
    t.flag .s = decide (128 ≤ (t.reg .a).toNat) ∧
    t.flag .v = s.flag .v ∧
    t.flag .i = s.flag .i ∧
    t.f &&& 0xE0 = 0 ∧
    t = { s with regs := s.regs.set .a (t.reg .a), f := t.f, icount := s.icount - 1 - s.waitAcc }

/-- `i` completes from `s` with one flag set to `b` and the others kept, at cost 1. -/
def PutsFlag (i : Instr) (s : State) (fl : Flag) (b : Bool) (shadow : Bool) : Prop :=
  ∃ t, exec i s = .next t ∧
    t.flag fl = b ∧
    (∀ other, other ≠ fl → t.flag other = s.flag other) ∧
    t.f &&& 0xE0 = 0 ∧
    t = { s with f := t.f, ishadow := shadow, icount := s.icount - 1 - s.waitAcc }

/-- `i` completes from `s` as a relative branch: to PC plus the signed displacement modulo 2^16 at cost 3 when `cond`, else
past the branch at cost 2; nothing else changes. -/
def Branches (i : Instr) (s : State) (rel8 : Byte) (cond : Bool) : Prop :=
  ∃ t, exec i s = .next t ∧
    (cond = true → (t.pc.toNat : Int) = (s.pc.toNat + rel8.toInt) % 65536) ∧
    (cond = false → t.pc = s.pc) ∧
    t = { s with pc := t.pc, icount := s.icount - (if cond then 3 else 2) - s.waitAcc }

/-- `i` completes from `s` as a load of `r` from `ea`: what the Address Space answers, no flag, one access. -/
def Loads (i : Instr) (s : State) (r : Reg) (ea : Word) (cost : Nat) : Prop :=
  exec i s = .next
    { s with
      regs := s.regs.set r (s.busByte ea)
      icount := s.icount - cost - (s.waitAcc + s.nextAnswer.wait : Nat)
      waitAcc := s.waitAcc + s.nextAnswer.wait
      lines := s.lines.setAll s.nextAnswer.lines
      busAnswers := s.busAnswers.tail
      busLog := s.busLog ++ [{ kind := .read, addr := ea, value := s.busByte ea, wait := s.nextAnswer.wait }] }

/-- `i` completes from `s` as a store of `r` to `ea`: RAM takes the byte, anything else discards it, every other byte of
memory reads as before; no flag, no register, one access. -/
def Stores (i : Instr) (s : State) (r : Reg) (ea : Word) (cost : Nat) : Prop :=
  ∃ t, exec i s = .next t ∧
    (kindAt s.map ea.toNat = some .ram → t.peek ea = s.reg r) ∧
    (kindAt s.map ea.toNat ≠ some .ram → t.mem = s.mem) ∧
    (∀ a, a ≠ ea → t.peek a = s.peek a) ∧
    t.mem.wf = true ∧
    t =
      { s with
        mem := t.mem
        icount := s.icount - cost - (s.waitAcc + s.nextAnswer.wait : Nat)
        waitAcc := s.waitAcc + s.nextAnswer.wait
        lines := s.lines.setAll s.nextAnswer.lines
        busAnswers := s.busAnswers.tail
        busLog := s.busLog ++ [{ kind := .write, addr := ea, value := s.reg r, wait := s.nextAnswer.wait }] }

/-- The state after the callback that a change of HALTACK to `b` invokes, and before it when the level is already `b`
(60_exceptions.md R270): what `halted <- b; drive HALTACK to b` leaves. -/
def State.haltackAfter (s : State) (b : Bool) : State :=
  { s with
    halted := b
    lines := if s.halted = b then s.lines else s.lines.setAll (s.haltackAnswers.headD [])
    haltackAnswers := if s.halted = b then s.haltackAnswers else s.haltackAnswers.tail
    haltackLog := if s.halted = b then s.haltackLog else s.haltackLog ++ [b] }

end Sys2Proof.Machine
end

