-- ==== Sys2Proof/Certificates/Slice0/Obligations.lean ====
section
/-! DEFINITION. The statements for the provers. Rule numbers are those of spec/. -/

open Sys2Proof Sys2Proof.Machine

/-! ## Encoding -/

/-- Decoding what `encode` writes gives the instruction back, with every operand at every value, and leaves the bytes
after it (30_encoding.md R95, R97 to R100). -/
def Obligations.DecodeOfEncode : Prop :=
  ∀ (i : Instr) (rest : List Byte), decode (encode i ++ rest) = .instr i rest

/-- What decodes to an instruction is exactly that instruction's encoding: no two byte sequences decode to one constructor
with its operands (30_encoding.md R97, R100). `MOV A,A` is one instruction with two encodings, 0x08 and 0x0C (R103, R106); the
statement holds because the model keeps them apart as `movAR .a` and `movRA .a`, which mean the same (log 26). -/
def Obligations.EncodeOfDecode : Prop :=
  ∀ (bytes : List Byte) (i : Instr) (rest : List Byte), decode bytes = .instr i rest → encode i ++ rest = bytes

/-- The illegal first bytes are the four ranges of R101, 150 values, whatever the operand bytes; each has the length of its
range and runs the illegal-opcode handler. -/
def Obligations.IllegalFirstBytes : Prop :=
  (∀ b0 b1 b2 : Byte,
    (lookup b0 b1 b2 = none ↔
      (0x42 ≤ b0.toNat ∧ b0.toNat ≤ 0x7F) ∨ (0x8D ≤ b0.toNat ∧ b0.toNat ≤ 0x8F) ∨
        (0x99 ≤ b0.toNat ∧ b0.toNat ≤ 0xBF) ∨ 0xD2 ≤ b0.toNat)) ∧
  (∀ b0 : Byte,
    (b0.toNat ≤ 0x7F → lengthOf b0 = 1) ∧ (0x80 ≤ b0.toNat ∧ b0.toNat ≤ 0xBF → lengthOf b0 = 2) ∧
      (0xC0 ≤ b0.toNat → lengthOf b0 = 3)) ∧
  ((List.range 256).filter (fun n => (lookup (BitVec.ofNat 8 n) 0 0).isNone)).length = 150 ∧
  (∀ (d : Fetched) (s : State), lookup d.b0 d.b1 d.b2 = none → runFetched d s = .next (s.illegalOpcode d.ipc d.b0))

/-- The length of an instruction is a function of bits 7:6 of its first byte (R92). -/
def Obligations.LengthFromTopTwoBits : Prop :=
  (∀ b0 : Byte, lengthOf b0 = if b0.toNat < 0x80 then 1 else if b0.toNat < 0xC0 then 2 else 3) ∧
  (∀ b0 b0' : Byte, b0.extractLsb' 6 2 = b0'.extractLsb' 6 2 → lengthOf b0 = lengthOf b0')

/-- One word of each format, and an illegal one, decode as the encoding tables say (R97, R100). -/
def Obligations.TableWordsDecode : Prop :=
  decodeTableWord 8 0x03 = some .reti ∧
  decodeTableWord 8 0x0E = some (.movRA .x) ∧
  decodeTableWord 8 0x39 = some (.dec .b) ∧
  decodeTableWord 16 0x5A83 = some (.ldi .y 0x5A) ∧
  decodeTableWord 16 0x078C = some (.adnI 0x07) ∧
  decodeTableWord 16 0xFE98 = some (.bvc 0xFE) ∧
  decodeTableWord 24 0xFFF0CB = some (.ldX .y 0xFFF0) ∧
  decodeTableWord 24 0x1234C5 = some (.st .b 0x1234) ∧
  decodeTableWord 24 0x3000D1 = some (.call 0x3000) ∧
  decodeTableWord 8 0x42 = none

/-! ## Fetching and running an instruction -/

/-- `Decode()` reads exactly the bytes the length rule asks for, in ascending address order, legal or not (30_encoding.md R95,
R96; 20_memory.md R80). The byte read at PC + k is what the Address Space answers there after k accesses; each access takes one
answer, adds its wait adjustment and makes its `set_line` calls, in order (20_memory.md R66, R81). PC ends past the bytes and
nothing else changes. Answers, their end (no wait, no call) and the record are the model's form of it (log 5, 6, 14, 15). -/
def Obligations.FetchReadsExactlyLength : Prop :=
  ∀ s : State,
    let d := s.fetchInstr.1
    let t := s.fetchInstr.2
    let n := lengthOf d.b0
    let reads := t.busLog.drop s.busLog.length
    d.ipc = s.pc ∧ (n < 2 → d.b1 = 0) ∧ (n < 3 → d.b2 = 0) ∧
    (∀ k : Nat, k < n →
      [d.b0, d.b1, d.b2][k]? =
        some (State.busByte
          { s with
            busAnswers := s.busAnswers.drop k
            busLog := t.busLog.take (s.busLog.length + k) }
          (s.pc + BitVec.ofNat 16 k))) ∧
    t.busLog = s.busLog ++ reads ∧
    reads.map BusAccess.kind = List.replicate n .read ∧
    reads.map BusAccess.addr = (List.range n).map (fun k => s.pc + BitVec.ofNat 16 k) ∧
    reads.map BusAccess.value = [d.b0, d.b1, d.b2].take n ∧
    reads.map BusAccess.wait = (List.range n).map (fun k => (s.busAnswers[k]?.map BusAnswer.wait).getD 0) ∧
    t =
      { s with
        pc := s.pc + BitVec.ofNat 16 n
        busLog := t.busLog
        waitAcc := s.waitAcc + (reads.map BusAccess.wait).sum
        lines := s.lines.setAll ((s.busAnswers.take n).flatMap BusAnswer.lines)
        busAnswers := s.busAnswers.drop n }

/-- Where the platform has memory, the bytes fetched are those memory holds, across the top of the address space too
(30_encoding.md R94, R95; 10_state.md R24). That RAM and ROM answer with what they hold, and keep it between the reads, is the
model's platform (log 19, 23). -/
def Obligations.FetchFromMemory : Prop :=
  ∀ s : State, s.backed s.pc → s.backed (s.pc + 1) → s.backed (s.pc + 2) →
    let d := s.fetchInstr.1
    d.b0 = s.peek s.pc ∧
    d.b1 = (if 2 ≤ lengthOf (s.peek s.pc) then s.peek (s.pc + 1) else 0) ∧
    d.b2 = (if 3 ≤ lengthOf (s.peek s.pc) then s.peek (s.pc + 2) else 0)

/-- A single step of a running core executes the instruction its fetched bytes decode to: after the fetches, with PC past
them and the shadow cleared, it is `exec` of that instruction (40_execution_engine.md R133). That a step with nothing scripted is
`execute_run(1)` is the model's choice (log 7), after 60_exceptions.md R274. -/
def Obligations.StepRunsDecodedInstruction : Prop :=
  ∀ (s : State) (i : Instr) (rest : List Byte),
    s.running →
    let d := s.atFetch.fetchInstr.1
    let t := s.atFetch.fetchInstr.2
    decode [d.b0, d.b1, d.b2] = .instr i rest →
    step s = exec i { t with ishadow := false }

/-- With the encoding of `i` in memory at PC and no answer scripted, the single step is `exec i` with PC past the
instruction, the shadow cleared and the fetches recorded, everything else as it was. The model's choices it rests on: the step
is `execute_run(1)`, whose budget is the cycle counter 1 (log 7); an access with nothing scripted has a wait adjustment of 0
(log 6) and makes no `set_line` call (log 14); the record (log 15); memory answers with what it holds (log 19, 23). -/
def Obligations.StepRunsInstructionFromMemory : Prop :=
  ∀ (s : State) (i : Instr),
    s.running → s.busAnswers = [] →
    (∀ k : Nat, k < (encode i).length →
      s.backed (s.pc + BitVec.ofNat 16 k) ∧ (encode i)[k]? = some (s.peek (s.pc + BitVec.ofNat 16 k))) →
    step s = exec i
      { s with
        pc := s.pc + BitVec.ofNat 16 (encode i).length
        icount := 1
        waitAcc := 0
        ishadow := false
        busLog := s.busLog ++ (List.range (encode i).length).map (fun k =>
          { kind := .read, addr := s.pc + BitVec.ofNat 16 k, value := s.peek (s.pc + BitVec.ofNat 16 k), wait := 0 }) }

/-- A single step that meets an illegal opcode: under NopContinue the record is logged, PC stays past the bytes, the shadow
is cleared and 2 cycles and the wait states are charged; under Fatal the record is logged, PC goes back, `faulted` is set and
nothing is charged (46_system.md R235, R236). The step is log 7, Fatal as a next state log 13, and that the wait accumulator
keeps its last value log 9. -/
def Obligations.StepHandlesIllegalOpcode : Prop :=
  ∀ (s : State) (b0 : Byte),
    s.running →
    let d := s.atFetch.fetchInstr.1
    let t := s.atFetch.fetchInstr.2
    let log := s.diagLog ++ [{ kind := .illegalOpcode, addr := s.pc, opcode := d.b0 }]
    decode [d.b0, d.b1, d.b2] = .illegalOpcode b0 →
    (s.cfg.illegalPolicy = .nopContinue →
      step s = .next { t with ishadow := false, diagLog := log, icount := 1 - 2 - t.waitAcc }) ∧
    (s.cfg.illegalPolicy = .fatal →
      step s = .next { t with pc := s.pc, faulted := true, diagLog := log })

/-! ## Interrupts and reset -/

/-- Taking an interrupt (60_exceptions.md R255): PC and then F are pushed, I and the shadow are cleared, Halted is left
with HALTACK driven to 0, the NMI latch is cleared for NMI, PC is the vector, 6 cycles are charged, nothing else changes. That
the NMI latch is clear after the HALTACK callback, so that an edge raised inside it is lost, is the model's reading of R255
against R246 (log 11); the callback's calls and its record are log 14 and 15. -/
def Obligations.DispatchEntersInterrupt : Prop :=
  ∀ (s : State) (k : Interrupt),
    s.dispatch k =
      { s.haltackAfter false with
        stk := (s.stk.set s.spl.toNat s.pc s.spl.isLt).set (s.spl + 1).toNat (s.readF.setWidth 16) (s.spl + 1).isLt
        spl := s.spl + 2
        f := s.readF &&& 0x0F
        ishadow := false
        lines :=
          match k with
          | .nmi => { (s.haltackAfter false).lines with nmiPending := false }
          | .irq => (s.haltackAfter false).lines
        pc :=
          match k with
          | .nmi => 0x0008
          | .irq => 0x0010
        icount := s.icount - 6 }

/-- The checkpoint: RESET before NMI before IRQ, at most one of them; IRQ only when asserted, enabled and not shadowed
(40_execution_engine.md R132). -/
def Obligations.CheckpointPriority : Prop :=
  ∀ s : State,
    (s.lines.resetPending = true → s.checkpoint = s.performReset) ∧
    (s.lines.resetPending = false → s.lines.nmiPending = true → s.checkpoint = s.dispatch .nmi) ∧
    (s.lines.resetPending = false → s.lines.nmiPending = false → s.lines.irqLevel = .asserted → s.flag .i = true →
      s.ishadow = false → s.checkpoint = s.dispatch .irq) ∧
    (s.lines.resetPending = false → s.lines.nmiPending = false →
      (s.lines.irqLevel = .cleared ∨ s.flag .i = false ∨ s.ishadow = true) → s.checkpoint = s)

/-- A request recorded while the Engine is Idle is served by the very next single step, halted or not, and the first
instruction at its vector runs in the same step (60_exceptions.md R258, R260; 40_execution_engine.md R123; the step is
log 7). -/
def Obligations.StepServesRequestFirst : Prop :=
  ∀ s : State, s.script = [] → s.faulted = false →
    let s1 : State := { s with icount := 1 }
    (s.lines.resetPending = true → step s = execOne s1.performReset ∧ s1.performReset.pc = 0x0000) ∧
    (s.lines.resetPending = false → s.lines.nmiPending = true →
      step s = execOne (s1.dispatch .nmi) ∧ (s1.dispatch .nmi).pc = 0x0008) ∧
    (s.lines.resetPending = false → s.lines.nmiPending = false → s.irqServiceable = true →
      step s = execOne (s1.dispatch .irq) ∧ (s1.dispatch .irq).pc = 0x0010)

/-- After a dispatch and a handler that leaves the level and the two saved entries as it found them, `RETI` brings back the
interrupted PC, F and SPL and sets no shadow (46_system.md R234). -/
def Obligations.ReturnUndoesDispatch : Prop :=
  ∀ (s u : State) (k : Interrupt),
    u.spl = (s.dispatch k).spl →
    (∀ j : BitVec 3, j = s.spl ∨ j = s.spl + 1 →
      u.stk[j.toNat]'j.isLt = (s.dispatch k).stk[j.toNat]'j.isLt) →
    ∃ t, exec .reti u = .next t ∧ t.pc = s.pc ∧ t.readF = s.readF ∧ t.spl = s.spl ∧ t.ishadow = u.ishadow

/-- `Reset()` (70_reset_and_hazards.md R281): registers, F, SPL, STK and shadow are zeroed, the latches are zeroed before
HALTACK is driven to 0 if it was 1, PC is the reset vector, no cycle is charged, everything else is kept. That an edge raised by
the reset's own HALTACK callback therefore survives is the model's reading of the order of R281 (log 20); the callback's calls
and its record are log 14 and 15. -/
def Obligations.ResetProcedure : Prop :=
  ∀ s : State,
    s.performReset =
      { State.haltackAfter { s with lines := { s.lines with nmiPending := false, resetPending := false } } false with
        regs := { a := 0x00, b := 0x00, x := 0x00, y := 0x00 }
        f := 0x00
        spl := 0
        stk := Vector.replicate 8 0x0000
        ishadow := false
        pc := 0x0000 }

/-- The values after a reset that the spec tabulates (10_state.md R55), and what a reset leaves alone: first after
`device_start` and reset, then after any later reset with no callback call scripted, where none is made (log 14). A reset with
calls scripted is in ResetProcedure. -/
def Obligations.ResetValues : Prop :=
  (State.reset.pc = 0x0000 ∧ (∀ r, State.reset.reg r = 0x00) ∧ State.reset.readF = 0x00 ∧ State.reset.spl = 0 ∧
    (∀ k : Fin 8, State.reset.stk[k] = 0x0000) ∧ State.reset.lines.nmiPending = false ∧
    State.reset.lines.resetPending = false ∧ State.reset.ishadow = false ∧ State.reset.halted = false ∧
    State.reset.lines.irqLevel = .cleared ∧ State.reset.lines.nmiLevel = .cleared ∧
    State.reset.lines.resetLevel = .cleared ∧ State.reset.faulted = false ∧ State.reset.diagLog = []) ∧
  (∀ s : State, s.haltackAnswers = [] →
    let t := s.performReset
    t.pc = 0x0000 ∧ (∀ r, t.reg r = 0x00) ∧ t.readF = 0x00 ∧ t.spl = 0 ∧ (∀ k : Fin 8, t.stk[k] = 0x0000) ∧
    t.lines.nmiPending = false ∧ t.lines.resetPending = false ∧ t.ishadow = false ∧ t.halted = false ∧
    t.haltackLog = (if s.halted then s.haltackLog ++ [false] else s.haltackLog) ∧
    t.lines.irqLevel = s.lines.irqLevel ∧ t.lines.nmiLevel = s.lines.nmiLevel ∧
    t.lines.resetLevel = s.lines.resetLevel ∧ t.faulted = s.faulted ∧ t.diagLog = s.diagLog ∧
    t.icount = s.icount ∧ t.mem = s.mem)

/-- `device_start` accepts a 16-bit space with a sound map and nothing else, and binds configuration and surroundings; lines
cleared, no request, no fault, nothing logged, HALTACK 0, no value in `nmi_pending` (00_scope.md R10; 70_reset_and_hazards.md
R280; 10_state.md R57). `set_line` before the first reset records each line's last level and the edges (60_exceptions.md R243;
70 R285). The first `device_reset` then gives the reset state with the levels kept and the latches zeroed (10_state.md R55,
R56), and every later one is `Reset()` at once (70 R282). That an empty row of the map or one that leaves the space is refused is
log 17; the pre-reset form of `nmi_pending` is log 10; the cycle counter, the wait accumulator and the model's own fields in the
reset state are log 9, 14 and 15. -/
def Obligations.StartThenReset : Prop :=
  (∀ (bits : Nat) (cfg : Config) (outside : Surroundings),
    (bits = 16 ∧ outside.map.all Region.wf = true →
      ∃ t, deviceStart bits cfg outside = .ok t ∧
        t.irqLevel = .cleared ∧ t.nmiLevel = .cleared ∧ t.resetLevel = .cleared ∧ t.nmiPending = none ∧
        t.resetPending = false ∧ t.faulted = false ∧ t.diagLog = [] ∧ t.haltack = false ∧ t.cfg = cfg ∧ t.outside = outside ∧
        ∀ calls : List LineCall,
          let u := t.setLines calls
          let level := fun l => ((calls.filter (fun c => c.line == l)).getLast?.map LineCall.level).getD .cleared
          let edge := fun l => calls.any (fun c => c.line == l && c.level == .asserted)
          u.irqLevel = level .irq ∧ u.nmiLevel = level .nmi ∧ u.resetLevel = level .reset ∧
          u.nmiPending = (if edge .nmi then some true else none) ∧ u.resetPending = edge .reset ∧
          u.deviceReset =
            { State.reset with
              lines :=
                { irqLevel := level .irq
                  nmiLevel := level .nmi
                  resetLevel := level .reset
                  nmiPending := false
                  resetPending := false }
              cfg := cfg
              map := outside.map
              mem := outside.mem
              busAnswers := outside.busAnswers
              haltackAnswers := outside.haltackAnswers
              script := outside.script }) ∧
    (¬(bits = 16 ∧ outside.map.all Region.wf = true) → ∃ e, deviceStart bits cfg outside = .error e)) ∧
  (∀ s : State, s.deviceReset = s.performReset)

/-! ## Invariants and whole-machine rules -/

/-- The invariant holds after reset; that nothing is listed in memory is the model's choice (log 1). -/
def Obligations.InvariantAtReset : Prop := State.reset.Inv

/-- Every step, whatever the host scripts and the Address Space answers, keeps the invariant: the hardwired bits of F stay
0 (10_state.md R26), HALTACK as last reported equals `halted` (60_exceptions.md R270), memory stays in canonical form. The
canonical form is the model's own way of holding memory (log 1) and no rule of the spec; the record of HALTACK is log 15, F as
eight bits log 25, the step log 7. -/
def Obligations.StepKeepsInvariant : Prop :=
  ∀ s t : State, s.Inv → step s = .next t → t.Inv

/-- Every state steps, and this is where to: no instruction, access, stack depth or budget stops the machine (60_exceptions.md
R254; 93_implementation_defined.md part 3). With nothing scripted the step is the state after `execute_run(1)` (60_exceptions.md
R274); with a quantum scripted it is the state after that quantum's operations, in order (00_scope.md R11), and then
`execute_run` of its budget. The step's form is the model's choice (log 7); that an illegal opcode under Fatal is a next state
and no stop is log 13. -/
def Obligations.StepAlwaysCompletes : Prop :=
  ∀ s : State,
    (s.script = [] → ∃ n t, executeRun 1 s = .next (n, t) ∧ step s = .next t) ∧
    (∀ q rest, s.script = q :: rest →
      let idle := q.ops.foldl
        (fun u op =>
          match op with
          | .setLine c => u.setLine c
          | .stateSet key value => u.stateSet key value
          | .deviceReset => u.performReset)
        { s with script := rest }
      ∃ n t, executeRun q.budget idle = .next (n, t) ∧ step s = .next t)

/-- `diag_log` and the records of bus and HALTACK only grow, and the configuration and the map never change (10_state.md
R42; 46_system.md R237). The records of bus and HALTACK are the model's own (log 15), and so is the step (log 7). -/
def Obligations.RecordsOnlyGrow : Prop :=
  ∀ s t : State, step s = .next t →
    s.diagLog <+: t.diagLog ∧ s.busLog <+: t.busLog ∧ s.haltackLog <+: t.haltackLog ∧ t.cfg = s.cfg ∧ t.map = s.map

/-- A faulted core stays faulted whatever the host does, `device_reset` included: it makes no bus access, logs nothing and
writes no memory; with nothing scripted it does not change at all (10_state.md R40; 70_reset_and_hazards.md R284). The step is
log 7, the record of accesses log 15; that nothing else writes memory is log 23. -/
def Obligations.FaultedCoreStaysDead : Prop :=
  ∀ s t : State, s.faulted = true → step s = .next t →
    t.faulted = true ∧ t.busLog = s.busLog ∧ t.diagLog = s.diagLog ∧ t.mem = s.mem ∧ (s.script = [] → t = s)

/-- Only the flags that the table of R27 lists for an instruction change (10_state.md R28). -/
def Obligations.FlagsWrittenAsListed : Prop :=
  ∀ (i : Instr) (s t : State) (fl : Flag), exec i s = .next t → writesFlag i fl = false → t.flag fl = s.flag fl

/-- Only the register that an instruction is listed to write changes (10_state.md R22). -/
def Obligations.RegistersWrittenAsListed : Prop :=
  ∀ (i : Instr) (s t : State) (r : Reg), exec i s = .next t → writesReg i ≠ some r → t.reg r = s.reg r

/-- Only `ST` writes memory (20_memory.md R68). That an access to a device changes no memory is the model's platform (log 19,
23). -/
def Obligations.OnlyStoresWriteMemory : Prop :=
  ∀ (i : Instr) (s t : State), exec i s = .next t → (∀ r a, i ≠ .st r a) → (∀ r a, i ≠ .stX r a) →
    t.mem = s.mem ∧ ∀ a, t.peek a = s.peek a

/-- Only `CALL`, `RET` and `RETI` touch the return stack, and `RET` and `RETI` clear no entry (10_state.md R32, R34). -/
def Obligations.StackUsers : Prop :=
  ∀ (i : Instr) (s t : State), exec i s = .next t →
    ((∀ a, i ≠ .call a) → t.stk = s.stk) ∧
    ((∀ a, i ≠ .call a) → i ≠ .ret → i ≠ .reti → t.spl = s.spl) ∧
    ((∃ a, i = .call a) → t.spl = s.spl + 1) ∧ (i = .ret → t.spl = s.spl - 1) ∧ (i = .reti → t.spl = s.spl - 2)

/-- No instruction faults the core, writes `diag_log`, the configuration, the map or the script; only `EI` touches the shadow,
only `HLT` Halted, only the control transfers PC, and the lines change only where an access or the HALTACK callback calls
`set_line`. -/
def Obligations.InstructionsLeaveSystemState : Prop :=
  ∀ (i : Instr) (s t : State), exec i s = .next t →
    t.faulted = s.faulted ∧ t.diagLog = s.diagLog ∧ t.cfg = s.cfg ∧ t.map = s.map ∧ t.script = s.script ∧
    (i ≠ .ei → t.ishadow = s.ishadow) ∧
    (i ≠ .hlt → t.halted = s.halted ∧ t.haltackLog = s.haltackLog) ∧
    (transfersControl i = false → t.pc = s.pc) ∧
    (i ≠ .hlt → dataAccesses s i = [] → t.lines = s.lines)

/-- After `EI`, and after no other instruction, the shadow is set; while it is set a checkpoint with no RESET and no NMI
pending does nothing (60_exceptions.md R252). -/
def Obligations.ShadowLastsOneInstruction : Prop :=
  (∀ (i : Instr) (s t : State), exec i { s with ishadow := false } = .next t → (t.ishadow = true ↔ i = .ei)) ∧
  (∀ s : State, s.ishadow = true → s.lines.resetPending = false → s.lines.nmiPending = false → s.checkpoint = s)

/-- An instruction is charged its base cost of R301 and its wait adjustments, fetches included
(40_execution_engine.md R135). The wait states are read from the model's record (log 15). -/
def Obligations.CyclesCharged : Prop :=
  ∀ (i : Instr) (s t : State), exec i s = .next t →
    t.waitAcc = s.waitAcc + waitsBetween s t ∧ t.icount = s.icount - baseCycles s i - t.waitAcc

/-- The bus accesses of an instruction after its fetches, as the model records them (log 15), are exactly those of the table
of 20_memory.md R80, in order. -/
def Obligations.DataAccessesAsListed : Prop :=
  ∀ (i : Instr) (s t : State), exec i s = .next t →
    s.busLog <+: t.busLog ∧
    (t.busLog.drop s.busLog.length).map (fun x => (x.kind, x.addr)) = dataAccesses s i

/-- Time never affects a result: an iteration from the same state without cycle counts and wait adjustments computes, accesses
and requests the same (20_memory.md R66; 70_reset_and_hazards.md R300). Accesses are compared in the model's record (log 15). -/
def Obligations.TimingDoesNotAffectResults : Prop :=
  ∀ s t : State, iteration s = .next t → ∃ u, iteration s.untimed = .next u ∧ u.untimed = t.untimed

/-! ## `execute_run` -/

/-- `execute_run` always returns, and unless the core is faulted afterwards it has consumed at least its budget
(40_execution_engine.md R125, R138). -/
def Obligations.RunConsumesBudget : Prop :=
  ∀ (budget : Int) (s : State), 0 < budget →
    ∃ n t, executeRun budget s = .next (n, t) ∧ (t.faulted = false → budget ≤ n)

/-- The overrun of a run is at most 10 cycles plus the wait adjustments of the last instruction (40_execution_engine.md
R139). That those are still in the wait accumulator after the call is the model's choice (log 9). -/
def Obligations.RunOverrunBounded : Prop :=
  ∀ (budget n : Int) (s t : State), 0 < budget → executeRun budget s = .next (n, t) → n ≤ budget + 10 + t.waitAcc

/-- What `execute_run` returns is the sum, over its iterations, of the dispatch, instruction, wait-state, illegal-opcode and
idle cycles (40_execution_engine.md R138). The wait states are read from the model's record (log 15). -/
def Obligations.RunAccountsEveryCycle : Prop :=
  ∀ (budget n : Int) (s t : State), 0 < budget → s.faulted = false → executeRun budget s = .next (n, t) →
    n = ((iterations budget.toNat { s with icount := budget }).map (fun p => iterationCycles p.1 p.2)).sum

/-- A run is a sequence of single steps: cutting a quantum into quanta of one cycle examines every instruction boundary once
and ends in the same state but for the cycle counter (40_execution_engine.md R123, R131; 60_exceptions.md R274). The step is log 7. -/
def Obligations.RunEqualsSingleSteps : Prop :=
  ∀ (budget n : Int) (s t : State), 0 < budget → s.script = [] → executeRun budget s = .next (n, t) →
    ∃ (k : Nat) (u : State), k ≤ budget.toNat ∧ Sys2Proof.core.run k s = .next u ∧
      ({ u with icount := 0 } : State) = { t with icount := 0 }

/-- A halted core with nothing to serve turns the whole budget into idle cycles: no register, latch or access changes
(40_execution_engine.md R136). That the cycle counter keeps its last value is log 9, that memory stays log 23. -/
def Obligations.HaltedRunIdles : Prop :=
  ∀ (budget : Int) (s : State), 0 < budget → s.faulted = false → s.halted = true → s.quiet = true →
    executeRun budget s = .next (budget, { s with icount := 0 })

/-- A call with a budget of zero or less does nothing and returns 0 (40_execution_engine.md R129). -/
def Obligations.NonpositiveBudgetDoesNothing : Prop :=
  ∀ (budget : Int) (s : State), budget ≤ 0 → executeRun budget s = .next (0, s)

/-- Under Fatal, a run whose first instruction is illegal returns at once having consumed no cycle, and every later run
returns its budget (or 0) and changes nothing (40_execution_engine.md R137). Fatal as a next state is log 13. -/
def Obligations.FatalEndsRun : Prop :=
  (∀ (budget : Int) (s : State), 0 < budget → s.running → s.cfg.illegalPolicy = .fatal →
    (let d := s.atFetch.fetchInstr.1
     lookup d.b0 d.b1 d.b2 = none) →
    ∃ t, executeRun budget s = .next (0, t) ∧ t.faulted = true ∧ t.pc = s.pc) ∧
  (∀ (budget : Int) (s : State), s.faulted = true → executeRun budget s = .next (max budget 0, s))

/-! ## Lines and the State Exporter -/

/-- `set_line` records the level, and for NMI and RESET latches a cleared-to-asserted change; it writes nothing else
(60_exceptions.md R243). The line ids are 0 for IRQ, 1 for NMI, 2 for RESET, and no other number is one (R241; the checked
conversion is log 17). -/
def Obligations.SetLineRecords : Prop :=
  (∀ (s : State) (l : Level),
    s.setLine { line := .irq, level := l } = { s with lines := { s.lines with irqLevel := l } } ∧
    s.setLine { line := .nmi, level := l } =
      { s with
        lines :=
          { s.lines with
            nmiLevel := l
            nmiPending :=
              if s.lines.nmiLevel = .cleared ∧ l = .asserted then true else s.lines.nmiPending } } ∧
    s.setLine { line := .reset, level := l } =
      { s with
        lines :=
          { s.lines with
            resetLevel := l
            resetPending :=
              if s.lines.resetLevel = .cleared ∧ l = .asserted then true else s.lines.resetPending } }) ∧
  lineOfId 0 = some .irq ∧ lineOfId 1 = some .nmi ∧ lineOfId 2 = some .reset ∧ ∀ n : Nat, 2 < n → lineOfId n = none

/-- A call that does not change its line's level changes nothing; clearing a line clears no latch; a pulse on IRQ between
two checkpoints leaves no trace (60_exceptions.md R244). -/
def Obligations.LineEdgeLaws : Prop :=
  ∀ s : State,
    s.setLine { line := .irq, level := s.lines.irqLevel } = s ∧
    s.setLine { line := .nmi, level := s.lines.nmiLevel } = s ∧
    s.setLine { line := .reset, level := s.lines.resetLevel } = s ∧
    (∀ line : Line,
      (s.setLine { line := line, level := .cleared }).lines.nmiPending = s.lines.nmiPending ∧
      (s.setLine { line := line, level := .cleared }).lines.resetPending = s.lines.resetPending) ∧
    (s.lines.irqLevel = .cleared →
      (s.setLine { line := .irq, level := .asserted }).setLine { line := .irq, level := .cleared } = s)

/-- The table of keys (10_state.md R48): index, width, mask, the canonical column, and the item each key projects; 7 and all
above 18 are no key. What `state_set` stores, `state_get` returns, masked to the key's width (R49, R50), and every other key keeps
its value but for the side effects of R51. Values and indices are numbers, checked (log 17); the HALTACK callback that a write of
HALTED makes may latch an NMI (log 14). -/
def Obligations.StateSetThenGet : Prop :=
  (keyIndex .pc = 0 ∧ keyIndex .f = 1 ∧ keyIndex .a = 2 ∧ keyIndex .b = 3 ∧ keyIndex .x = 4 ∧ keyIndex .y = 5 ∧
    keyIndex .spl = 6 ∧ (∀ k : Fin 8, keyIndex (.stk k) = 8 + k.val) ∧ keyIndex .nmip = 16 ∧ keyIndex .ishadow = 17 ∧
    keyIndex .halted = 18) ∧
  (keyMask .pc = 0xFFFF ∧ keyMask .f = 0x1F ∧ keyMask .a = 0xFF ∧ keyMask .b = 0xFF ∧ keyMask .x = 0xFF ∧
    keyMask .y = 0xFF ∧ keyMask .spl = 0x07 ∧ (∀ k : Fin 8, keyMask (.stk k) = 0xFFFF) ∧ keyMask .nmip = 0x01 ∧
    keyMask .ishadow = 0x01 ∧ keyMask .halted = 0x01) ∧
  (keyWidth .pc = 16 ∧ keyWidth .f = 8 ∧ keyWidth .a = 8 ∧ keyWidth .b = 8 ∧ keyWidth .x = 8 ∧ keyWidth .y = 8 ∧
    keyWidth .spl = 3 ∧ (∀ k : Fin 8, keyWidth (.stk k) = 16) ∧ keyWidth .nmip = 1 ∧ keyWidth .ishadow = 1 ∧
    keyWidth .halted = 1) ∧
  (∀ key : StateKey, keyCanonical key = false ↔ key = .nmip ∨ key = .ishadow ∨ key = .halted) ∧
  (∀ s : State,
    s.stateGet .pc = s.pc.toNat ∧ s.stateGet .f = s.readF.toNat ∧ s.stateGet .a = (s.reg .a).toNat ∧
    s.stateGet .b = (s.reg .b).toNat ∧ s.stateGet .x = (s.reg .x).toNat ∧ s.stateGet .y = (s.reg .y).toNat ∧
    s.stateGet .spl = s.spl.toNat ∧ (∀ k : Fin 8, s.stateGet (.stk k) = s.stk[k].toNat) ∧
    s.stateGet .nmip = s.lines.nmiPending.toNat ∧ s.stateGet .ishadow = s.ishadow.toNat ∧
    s.stateGet .halted = s.halted.toNat) ∧
  (∀ (s : State) (key : StateKey) (v : Nat),
    (s.stateSet key v).stateGet key = v % (keyMask key + 1)) ∧
  (∀ (s : State) (key other : StateKey) (v : Nat), other ≠ key → ¬(key = .pc ∧ other = .ishadow) →
    ¬(key = .halted ∧ other = .nmip) → (s.stateSet key v).stateGet other = s.stateGet other) ∧
  (∀ key : StateKey, keyOfIndex (keyIndex key) = some key) ∧
  (∀ n : Nat, keyOfIndex n = none ↔ n = 7 ∨ 18 < n)

/-- The side effects of `state_set` (10_state.md R51): PC also clears the shadow; HALTED drives HALTACK if it changes; F is
stored masked and sets no shadow. The calls and the record of the HALTACK callback are log 14 and 15. -/
def Obligations.StateSetSideEffects : Prop :=
  ∀ (s : State) (v : Nat),
    s.stateSet .pc v = { s with pc := BitVec.ofNat 16 v, ishadow := false } ∧
    s.stateSet .halted v = s.haltackAfter (decide (v % 2 = 1)) ∧
    s.stateSet .f v = { s with f := BitVec.ofNat 8 (v % 32) }

/-! ## The return stack and the bus -/

/-- The stack is a ring of eight (10_state.md R33 to R35): a push stores at SPL and advances it modulo 8, a pop gives back
what was pushed last and clears nothing, a ninth push overwrites the oldest entry and the other seven stay. -/
def Obligations.StackIsRingOfEight : Prop :=
  (∀ (s : State) (v : Word),
    (s.push v).stk[s.spl.toNat]'s.spl.isLt = v ∧ (s.push v).spl.toNat = (s.spl.toNat + 1) % 8 ∧
    s.drop.spl.toNat = (s.spl.toNat + 7) % 8 ∧ s.drop.stk = s.stk ∧ (s.push v).top = v) ∧
  (∀ (s : State) (v : Fin 9 → Word),
    let t := (List.finRange 9).foldl (fun u k => u.push (v k)) s
    t.spl = s.spl + 1 ∧
    t.stk[s.spl.toNat]'s.spl.isLt = v 8 ∧
    ∀ k : Fin 9, 1 ≤ k.val → k.val ≤ 7 →
      t.stk[(s.spl + BitVec.ofNat 3 k.val).toNat]'(s.spl + BitVec.ofNat 3 k.val).isLt = v k)

/-- What a bus read and a bus write do by what is mapped (20_memory.md R60 to R64): an unmapped address answers with
`OPEN_BUS_FILL` and discards a write; a device answers a read with any byte. That RAM and ROM answer with what they hold, that RAM
alone takes a write and keeps every other byte, and that a write to a device changes no memory is the model's platform (log 5, 19,
23), of which R60 itself assumes nothing. -/
def Obligations.BusReadsAndWrites : Prop :=
  ∀ (s : State) (a : Word) (v : Byte), s.mem.wf = true →
    (s.backed a = true → (s.memRead a).1 = s.peek a) ∧
    (kindAt s.map a.toNat = none → (s.memRead a).1 = s.cfg.openBusFill) ∧
    (kindAt s.map a.toNat = some .device → (s.memRead a).1 = s.nextAnswer.deviceByte) ∧
    (s.memRead a).2.mem = s.mem ∧
    (kindAt s.map a.toNat = some .ram → (s.memWrite a v).peek a = v) ∧
    (kindAt s.map a.toNat ≠ some .ram → (s.memWrite a v).peek a = s.peek a) ∧
    (∀ b, b ≠ a → (s.memWrite a v).peek b = s.peek b)

/-- A store to RAM, in both forms, is seen by every fetch from that address that follows it, also when it is a byte of the very
next instruction: its first byte or an operand byte, as in program P5 (20_memory.md R78). That RAM keeps the byte is the model's
platform (log 19, 23). -/
def Obligations.StoreSeenByNextFetch : Prop :=
  ∀ (i : Instr) (s t : State) (r : Reg) (a16 ea : Word), s.mem.wf = true →
    (i = .st r a16 ∧ ea = a16 ∨ i = .stX r a16 ∧ ea = s.indexedEa a16) →
    kindAt s.map ea.toNat = some .ram → exec i s = .next t →
    let d := t.fetchInstr.1
    (t.setPc ea).fetch.1 = s.reg r ∧
    (t.pc = ea → d.b0 = s.reg r) ∧
    (t.pc + 1 = ea → 2 ≤ lengthOf d.b0 → d.b1 = s.reg r) ∧
    (t.pc + 2 = ea → lengthOf d.b0 = 3 → d.b2 = s.reg r)

/-! ## Results of the instructions, family by family -/

/-- `ADD` and `ADC` complete with the sum, C, Z, S and V in both forms, and are encoded as R161 to R164 say. -/
def Obligations.AddAndAdcResults : Prop :=
  ∀ (s : State) (r : Reg) (v : Byte),
    Adds (.addR r) s (s.reg r) false 1 ∧ Adds (.addI v) s v false 2 ∧
    Adds (.adcR r) s (s.reg r) (s.flag .c) 1 ∧ Adds (.adcI v) s v (s.flag .c) 2 ∧
    encode (.addR r) = [0b000100#6 ++ r.field] ∧ encode (.addI v) = [0x84, v] ∧
    encode (.adcR r) = [0b000101#6 ++ r.field] ∧ encode (.adcI v) = [0x85, v]

/-- `SUB` and `SBC` complete with the difference, C the borrow, Z, S and V in both forms, and are encoded as R165 to R168
say. -/
def Obligations.SubAndSbcResults : Prop :=
  ∀ (s : State) (r : Reg) (v : Byte),
    Subtracts (.subR r) s (s.reg r) false 1 ∧ Subtracts (.subI v) s v false 2 ∧
    Subtracts (.sbcR r) s (s.reg r) (s.flag .c) 1 ∧ Subtracts (.sbcI v) s v (s.flag .c) 2 ∧
    encode (.subR r) = [0b000110#6 ++ r.field] ∧ encode (.subI v) = [0x86, v] ∧
    encode (.sbcR r) = [0b000111#6 ++ r.field] ∧ encode (.sbcI v) = [0x87, v]

/-- `CMP` completes with the flags of the subtraction and A unchanged; Z says equality, C unsigned less-than, S differing
from V signed less-than (R169, R170). -/
def Obligations.CmpResults : Prop :=
  (∀ (s : State) (r : Reg) (v : Byte),
    Compares (.cmpR r) s (s.reg r) 1 ∧ Compares (.cmpI v) s v 2 ∧
    encode (.cmpR r) = [0b001011#6 ++ r.field] ∧ encode (.cmpI v) = [0x8B, v]) ∧
  (∀ (s t : State) (r : Reg) (v : Byte), (exec (.cmpR r) s = .next t ∧ v = s.reg r) ∨ exec (.cmpI v) s = .next t →
    (t.flag .z = true ↔ s.reg .a = v) ∧ (t.flag .c = true ↔ (s.reg .a).toNat < v.toNat) ∧
    (t.flag .s ≠ t.flag .v ↔ (s.reg .a).toInt < v.toInt))

/-- `ADN` completes with the 8-bit sum, C the carry out of bit 3, Z; S, V and I stay (R171, R172). -/
def Obligations.AdnResults : Prop :=
  ∀ (s : State) (r : Reg) (v : Byte),
    AddsNibble (.adnR r) s (s.reg r) 1 ∧ AddsNibble (.adnI v) s v 2 ∧
    encode (.adnR r) = [0b001100#6 ++ r.field] ∧ encode (.adnI v) = [0x8C, v]

/-- `INC` and `DEC` complete with the register one up or down modulo 256, Z and S; C, V and I stay (R173, R174). -/
def Obligations.IncAndDecResults : Prop :=
  ∀ (s : State) (r : Reg),
    PutsZS (.inc r) s r (BitVec.ofNat 8 ((s.reg r).toNat + 1)) 1 ∧
    PutsZS (.dec r) s r (BitVec.ofNat 8 ((s.reg r).toNat + 255)) 1 ∧
    encode (.inc r) = [0b001101#6 ++ r.field] ∧ encode (.dec r) = [0b001110#6 ++ r.field]

/-- `AND`, `OR` and `XOR` complete with the bitwise result in A, Z and S; C, V and I stay (R180 to R185). -/
def Obligations.LogicResults : Prop :=
  ∀ (s : State) (r : Reg) (v : Byte),
    PutsZS (.andR r) s .a (s.reg .a &&& s.reg r) 1 ∧ PutsZS (.andI v) s .a (s.reg .a &&& v) 2 ∧
    PutsZS (.orR r) s .a (s.reg .a ||| s.reg r) 1 ∧ PutsZS (.orI v) s .a (s.reg .a ||| v) 2 ∧
    PutsZS (.xorR r) s .a (s.reg .a ^^^ s.reg r) 1 ∧ PutsZS (.xorI v) s .a (s.reg .a ^^^ v) 2 ∧
    encode (.andR r) = [0b001000#6 ++ r.field] ∧ encode (.andI v) = [0x88, v] ∧
    encode (.orR r) = [0b001001#6 ++ r.field] ∧ encode (.orI v) = [0x89, v] ∧
    encode (.xorR r) = [0b001010#6 ++ r.field] ∧ encode (.xorI v) = [0x8A, v]

/-- `SHL`, `SHR`, `ROL` and `ROR` complete with A shifted by one, C the bit that leaves it, Z and S; V and I stay (R186 to
R189). -/
def Obligations.ShiftResults : Prop :=
  ∀ s : State,
    Shifts .shl s ((s.reg .a).toNat * 2) (decide (128 ≤ (s.reg .a).toNat)) ∧
    Shifts .shr s ((s.reg .a).toNat / 2) (decide ((s.reg .a).toNat % 2 = 1)) ∧
    Shifts .rol s ((s.reg .a).toNat * 2 + (s.flag .c).toNat) (decide (128 ≤ (s.reg .a).toNat)) ∧
    Shifts .ror s ((s.reg .a).toNat / 2 + 128 * (s.flag .c).toNat) (decide ((s.reg .a).toNat % 2 = 1)) ∧
    encode .shl = [0x3C] ∧ encode .shr = [0x3D] ∧ encode .rol = [0x3E] ∧ encode .ror = [0x3F]

/-- `CLC`, `SEC`, `DI` and `EI` complete with their one flag written; `EI` alone sets the shadow, the others leave it (R190,
R191, R232, R233). -/
def Obligations.OneFlagResults : Prop :=
  ∀ s : State,
    PutsFlag .clc s .c false s.ishadow ∧ PutsFlag .sec s .c true s.ishadow ∧
    PutsFlag .di s .i false s.ishadow ∧ PutsFlag .ei s .i true true ∧
    encode .clc = [0x06] ∧ encode .sec = [0x07] ∧ encode .di = [0x05] ∧ encode .ei = [0x04]

/-- Data movement completes: `MOV A,r`, `MOV r,A` and `LDI` copy and touch no flag; `TFA` puts F in A, bits 7:5 zero; `TAF`
takes the five flags from A[4:0] and sets no shadow (R150 to R154). -/
def Obligations.DataMovementResults : Prop :=
  ∀ (s : State) (r : Reg) (v : Byte),
    exec (.movAR r) s = .next { s with regs := s.regs.set .a (s.reg r), icount := s.icount - 1 - s.waitAcc } ∧
    exec (.movRA r) s = .next { s with regs := s.regs.set r (s.reg .a), icount := s.icount - 1 - s.waitAcc } ∧
    exec (.ldi r v) s = .next { s with regs := s.regs.set r v, icount := s.icount - 2 - s.waitAcc } ∧
    (∃ t, exec .tfa s = .next t ∧ (t.reg .a).toNat < 32 ∧ (∀ fl, (t.reg .a).getLsbD fl.bit = s.flag fl) ∧
      t = { s with regs := s.regs.set .a (t.reg .a), icount := s.icount - 1 - s.waitAcc }) ∧
    (∃ t, exec .taf s = .next t ∧ (∀ fl, t.flag fl = (s.reg .a).getLsbD fl.bit) ∧ t.f &&& 0xE0 = 0 ∧
      t = { s with f := t.f, icount := s.icount - 1 - s.waitAcc }) ∧
    encode (.movAR r) = [0b000010#6 ++ r.field] ∧ encode (.movRA r) = [0b000011#6 ++ r.field] ∧
    encode (.ldi r v) = [0b100000#6 ++ r.field, v] ∧ encode .tfa = [0x40] ∧ encode .taf = [0x41]

/-- `LD` completes in both forms: the register takes what the Address Space answers at the effective address, computed from
X as it was, and no flag changes (44_load_store.md R200, R201, R203). The answers and the record are the model's form of the
Address Space (log 5, 6, 14, 15, 19). -/
def Obligations.LoadResults : Prop :=
  ∀ (s : State) (r : Reg) (a16 : Word),
    Loads (.ld r a16) s r a16 4 ∧ Loads (.ldX r a16) s r (s.indexedEa a16) 5 ∧
    (s.indexedEa a16).toNat = (a16.toNat + (s.reg .x).toNat) % 65536 ∧
    encode (.ld r a16) = [0b110000#6 ++ r.field, a16.extractLsb' 0 8, a16.extractLsb' 8 8] ∧
    encode (.ldX r a16) = [0b110010#6 ++ r.field, a16.extractLsb' 0 8, a16.extractLsb' 8 8]

/-- `ST` completes in both forms: RAM at the effective address takes the register, every other byte reads as before, and
no register and no flag changes (44_load_store.md R200, R202, R204). A write to an unmapped or read-only address is discarded
(R202); that a write to a device changes no memory is the model's platform (log 19, 23), and the answers and the record are its
form of the Address Space (log 6, 14, 15). -/
def Obligations.StoreResults : Prop :=
  ∀ (s : State) (r : Reg) (a16 : Word), s.mem.wf = true →
    Stores (.st r a16) s r a16 4 ∧ Stores (.stX r a16) s r (s.indexedEa a16) 5 ∧
    (s.indexedEa a16).toNat = (a16.toNat + (s.reg .x).toNat) % 65536 ∧
    encode (.st r a16) = [0b110001#6 ++ r.field, a16.extractLsb' 0 8, a16.extractLsb' 8 8] ∧
    encode (.stX r a16) = [0b110011#6 ++ r.field, a16.extractLsb' 0 8, a16.extractLsb' 8 8]

/-- The nine branches complete: taken on their flag to PC plus the signed displacement modulo 2^16 at cost 3, else on to the
next instruction at cost 2 (R210 to R220). -/
def Obligations.BranchResults : Prop :=
  ∀ (s : State) (d : Byte),
    Branches (.bra d) s d true ∧
    Branches (.beq d) s d (s.flag .z) ∧ Branches (.bne d) s d (!s.flag .z) ∧
    Branches (.bcs d) s d (s.flag .c) ∧ Branches (.bcc d) s d (!s.flag .c) ∧
    Branches (.bmi d) s d (s.flag .s) ∧ Branches (.bpl d) s d (!s.flag .s) ∧
    Branches (.bvs d) s d (s.flag .v) ∧ Branches (.bvc d) s d (!s.flag .v) ∧
    encode (.bra d) = [0x90, d] ∧ encode (.beq d) = [0x91, d] ∧ encode (.bne d) = [0x92, d] ∧
    encode (.bcs d) = [0x93, d] ∧ encode (.bcc d) = [0x94, d] ∧ encode (.bmi d) = [0x95, d] ∧
    encode (.bpl d) = [0x96, d] ∧ encode (.bvs d) = [0x97, d] ∧ encode (.bvc d) = [0x98, d]

/-- `JMP`, `CALL` and `RET` complete: PC takes the operand or the popped entry; `CALL` pushes the address after it and
saves no flag (R221 to R223). -/
def Obligations.JumpCallRetResults : Prop :=
  ∀ (s : State) (a16 : Word),
    exec (.jmp a16) s = .next { s with pc := a16, icount := s.icount - 3 - s.waitAcc } ∧
    exec (.call a16) s = .next
      { s with
        pc := a16
        stk := s.stk.set s.spl.toNat s.pc s.spl.isLt
        spl := s.spl + 1
        icount := s.icount - 5 - s.waitAcc } ∧
    exec .ret s = .next
      { s with
        pc := s.stk[(s.spl - 1).toNat]'(s.spl - 1).isLt
        spl := s.spl - 1
        icount := s.icount - 3 - s.waitAcc } ∧
    encode (.jmp a16) = [0xD0, a16.extractLsb' 0 8, a16.extractLsb' 8 8] ∧
    encode (.call a16) = [0xD1, a16.extractLsb' 0 8, a16.extractLsb' 8 8] ∧ encode .ret = [0x02]

/-- `NOP` completes changing nothing but the cycle counter; `HLT` completes with Halted set and HALTACK driven to 1, F.I
untouched, PC past it (46_system.md R230, R231). The calls and the record of the HALTACK callback are log 14 and 15. -/
def Obligations.NopAndHltResults : Prop :=
  ∀ s : State,
    exec .nop s = .next { s with icount := s.icount - 1 - s.waitAcc } ∧
    exec .hlt s = .next { s.haltackAfter true with icount := s.icount - 1 - s.waitAcc } ∧
    encode .nop = [0x00] ∧ encode .hlt = [0x01]

/-- `RETI` completes: F from bits 4:0 of the top entry, PC from the entry below it, SPL down by two modulo 8, no entry
cleared, no shadow, no latch touched (R234). -/
def Obligations.RetiResult : Prop :=
  ∀ s : State,
    (∃ t, exec .reti s = .next t ∧
      (∀ fl, t.flag fl = (s.stk[(s.spl - 1).toNat]'(s.spl - 1).isLt).getLsbD fl.bit) ∧ t.f &&& 0xE0 = 0 ∧
      t = { s with
            pc := s.stk[(s.spl - 2).toNat]'(s.spl - 2).isLt
            f := t.f
            spl := s.spl - 2
            icount := s.icount - 4 - s.waitAcc }) ∧
    encode .reti = [0x03]
end

