-- ==== Sys2Proof/Laws/State.lean ====
section
/-! SUPPORT. One lemma per field and update of the state, true by `rfl`; no proof needs to unfold an update. -/

namespace Sys2Proof.Machine

variable (s : State)

/-! ### `setReg` -/

@[simp] theorem setReg_pc (r : Reg) (v : Byte) : (s.setReg r v).pc = s.pc := rfl
@[simp] theorem setReg_regs (r : Reg) (v : Byte) : (s.setReg r v).regs = s.regs.set r v := rfl
@[simp] theorem setReg_f (r : Reg) (v : Byte) : (s.setReg r v).f = s.f := rfl
@[simp] theorem setReg_spl (r : Reg) (v : Byte) : (s.setReg r v).spl = s.spl := rfl
@[simp] theorem setReg_stk (r : Reg) (v : Byte) : (s.setReg r v).stk = s.stk := rfl
@[simp] theorem setReg_lines (r : Reg) (v : Byte) : (s.setReg r v).lines = s.lines := rfl
@[simp] theorem setReg_ishadow (r : Reg) (v : Byte) : (s.setReg r v).ishadow = s.ishadow := rfl
@[simp] theorem setReg_halted (r : Reg) (v : Byte) : (s.setReg r v).halted = s.halted := rfl
@[simp] theorem setReg_faulted (r : Reg) (v : Byte) : (s.setReg r v).faulted = s.faulted := rfl
@[simp] theorem setReg_icount (r : Reg) (v : Byte) : (s.setReg r v).icount = s.icount := rfl
@[simp] theorem setReg_waitAcc (r : Reg) (v : Byte) : (s.setReg r v).waitAcc = s.waitAcc := rfl
@[simp] theorem setReg_diagLog (r : Reg) (v : Byte) : (s.setReg r v).diagLog = s.diagLog := rfl
@[simp] theorem setReg_cfg (r : Reg) (v : Byte) : (s.setReg r v).cfg = s.cfg := rfl
@[simp] theorem setReg_map (r : Reg) (v : Byte) : (s.setReg r v).map = s.map := rfl
@[simp] theorem setReg_mem (r : Reg) (v : Byte) : (s.setReg r v).mem = s.mem := rfl
@[simp] theorem setReg_busAnswers (r : Reg) (v : Byte) : (s.setReg r v).busAnswers = s.busAnswers := rfl
@[simp] theorem setReg_haltackAnswers (r : Reg) (v : Byte) : (s.setReg r v).haltackAnswers = s.haltackAnswers := rfl
@[simp] theorem setReg_script (r : Reg) (v : Byte) : (s.setReg r v).script = s.script := rfl
@[simp] theorem setReg_busLog (r : Reg) (v : Byte) : (s.setReg r v).busLog = s.busLog := rfl
@[simp] theorem setReg_haltackLog (r : Reg) (v : Byte) : (s.setReg r v).haltackLog = s.haltackLog := rfl
@[simp] theorem setReg_readF (r : Reg) (v : Byte) : (s.setReg r v).readF = s.readF := rfl
@[simp] theorem setReg_flag (r : Reg) (v : Byte) (q : Flag) : (s.setReg r v).flag q = s.flag q := rfl
@[simp] theorem setReg_peek (r : Reg) (v : Byte) (q : Word) : (s.setReg r v).peek q = s.peek q := rfl

/-! ### `setPc` -/

@[simp] theorem setPc_pc (v : Word) : (s.setPc v).pc = v := rfl
@[simp] theorem setPc_regs (v : Word) : (s.setPc v).regs = s.regs := rfl
@[simp] theorem setPc_f (v : Word) : (s.setPc v).f = s.f := rfl
@[simp] theorem setPc_spl (v : Word) : (s.setPc v).spl = s.spl := rfl
@[simp] theorem setPc_stk (v : Word) : (s.setPc v).stk = s.stk := rfl
@[simp] theorem setPc_lines (v : Word) : (s.setPc v).lines = s.lines := rfl
@[simp] theorem setPc_ishadow (v : Word) : (s.setPc v).ishadow = s.ishadow := rfl
@[simp] theorem setPc_halted (v : Word) : (s.setPc v).halted = s.halted := rfl
@[simp] theorem setPc_faulted (v : Word) : (s.setPc v).faulted = s.faulted := rfl
@[simp] theorem setPc_icount (v : Word) : (s.setPc v).icount = s.icount := rfl
@[simp] theorem setPc_waitAcc (v : Word) : (s.setPc v).waitAcc = s.waitAcc := rfl
@[simp] theorem setPc_diagLog (v : Word) : (s.setPc v).diagLog = s.diagLog := rfl
@[simp] theorem setPc_cfg (v : Word) : (s.setPc v).cfg = s.cfg := rfl
@[simp] theorem setPc_map (v : Word) : (s.setPc v).map = s.map := rfl
@[simp] theorem setPc_mem (v : Word) : (s.setPc v).mem = s.mem := rfl
@[simp] theorem setPc_busAnswers (v : Word) : (s.setPc v).busAnswers = s.busAnswers := rfl
@[simp] theorem setPc_haltackAnswers (v : Word) : (s.setPc v).haltackAnswers = s.haltackAnswers := rfl
@[simp] theorem setPc_script (v : Word) : (s.setPc v).script = s.script := rfl
@[simp] theorem setPc_busLog (v : Word) : (s.setPc v).busLog = s.busLog := rfl
@[simp] theorem setPc_haltackLog (v : Word) : (s.setPc v).haltackLog = s.haltackLog := rfl
@[simp] theorem setPc_reg (v : Word) (q : Reg) : (s.setPc v).reg q = s.reg q := rfl
@[simp] theorem setPc_readF (v : Word) : (s.setPc v).readF = s.readF := rfl
@[simp] theorem setPc_flag (v : Word) (q : Flag) : (s.setPc v).flag q = s.flag q := rfl
@[simp] theorem setPc_peek (v : Word) (q : Word) : (s.setPc v).peek q = s.peek q := rfl

/-! ### `setF` -/

@[simp] theorem setF_pc (v : Byte) : (s.setF v).pc = s.pc := rfl
@[simp] theorem setF_regs (v : Byte) : (s.setF v).regs = s.regs := rfl
@[simp] theorem setF_f (v : Byte) : (s.setF v).f = v &&& flagMask := rfl
@[simp] theorem setF_spl (v : Byte) : (s.setF v).spl = s.spl := rfl
@[simp] theorem setF_stk (v : Byte) : (s.setF v).stk = s.stk := rfl
@[simp] theorem setF_lines (v : Byte) : (s.setF v).lines = s.lines := rfl
@[simp] theorem setF_ishadow (v : Byte) : (s.setF v).ishadow = s.ishadow := rfl
@[simp] theorem setF_halted (v : Byte) : (s.setF v).halted = s.halted := rfl
@[simp] theorem setF_faulted (v : Byte) : (s.setF v).faulted = s.faulted := rfl
@[simp] theorem setF_icount (v : Byte) : (s.setF v).icount = s.icount := rfl
@[simp] theorem setF_waitAcc (v : Byte) : (s.setF v).waitAcc = s.waitAcc := rfl
@[simp] theorem setF_diagLog (v : Byte) : (s.setF v).diagLog = s.diagLog := rfl
@[simp] theorem setF_cfg (v : Byte) : (s.setF v).cfg = s.cfg := rfl
@[simp] theorem setF_map (v : Byte) : (s.setF v).map = s.map := rfl
@[simp] theorem setF_mem (v : Byte) : (s.setF v).mem = s.mem := rfl
@[simp] theorem setF_busAnswers (v : Byte) : (s.setF v).busAnswers = s.busAnswers := rfl
@[simp] theorem setF_haltackAnswers (v : Byte) : (s.setF v).haltackAnswers = s.haltackAnswers := rfl
@[simp] theorem setF_script (v : Byte) : (s.setF v).script = s.script := rfl
@[simp] theorem setF_busLog (v : Byte) : (s.setF v).busLog = s.busLog := rfl
@[simp] theorem setF_haltackLog (v : Byte) : (s.setF v).haltackLog = s.haltackLog := rfl
@[simp] theorem setF_reg (v : Byte) (q : Reg) : (s.setF v).reg q = s.reg q := rfl
@[simp] theorem setF_peek (v : Byte) (q : Word) : (s.setF v).peek q = s.peek q := rfl

/-! ### `setFlag` -/

@[simp] theorem setFlag_pc (fl : Flag) (b : Bool) : (s.setFlag fl b).pc = s.pc := rfl
@[simp] theorem setFlag_regs (fl : Flag) (b : Bool) : (s.setFlag fl b).regs = s.regs := rfl
@[simp] theorem setFlag_f (fl : Flag) (b : Bool) : (s.setFlag fl b).f = putBit s.readF fl.bit b &&& flagMask := rfl
@[simp] theorem setFlag_spl (fl : Flag) (b : Bool) : (s.setFlag fl b).spl = s.spl := rfl
@[simp] theorem setFlag_stk (fl : Flag) (b : Bool) : (s.setFlag fl b).stk = s.stk := rfl
@[simp] theorem setFlag_lines (fl : Flag) (b : Bool) : (s.setFlag fl b).lines = s.lines := rfl
@[simp] theorem setFlag_ishadow (fl : Flag) (b : Bool) : (s.setFlag fl b).ishadow = s.ishadow := rfl
@[simp] theorem setFlag_halted (fl : Flag) (b : Bool) : (s.setFlag fl b).halted = s.halted := rfl
@[simp] theorem setFlag_faulted (fl : Flag) (b : Bool) : (s.setFlag fl b).faulted = s.faulted := rfl
@[simp] theorem setFlag_icount (fl : Flag) (b : Bool) : (s.setFlag fl b).icount = s.icount := rfl
@[simp] theorem setFlag_waitAcc (fl : Flag) (b : Bool) : (s.setFlag fl b).waitAcc = s.waitAcc := rfl
@[simp] theorem setFlag_diagLog (fl : Flag) (b : Bool) : (s.setFlag fl b).diagLog = s.diagLog := rfl
@[simp] theorem setFlag_cfg (fl : Flag) (b : Bool) : (s.setFlag fl b).cfg = s.cfg := rfl
@[simp] theorem setFlag_map (fl : Flag) (b : Bool) : (s.setFlag fl b).map = s.map := rfl
@[simp] theorem setFlag_mem (fl : Flag) (b : Bool) : (s.setFlag fl b).mem = s.mem := rfl
@[simp] theorem setFlag_busAnswers (fl : Flag) (b : Bool) : (s.setFlag fl b).busAnswers = s.busAnswers := rfl
@[simp] theorem setFlag_haltackAnswers (fl : Flag) (b : Bool) : (s.setFlag fl b).haltackAnswers = s.haltackAnswers := rfl
@[simp] theorem setFlag_script (fl : Flag) (b : Bool) : (s.setFlag fl b).script = s.script := rfl
@[simp] theorem setFlag_busLog (fl : Flag) (b : Bool) : (s.setFlag fl b).busLog = s.busLog := rfl
@[simp] theorem setFlag_haltackLog (fl : Flag) (b : Bool) : (s.setFlag fl b).haltackLog = s.haltackLog := rfl
@[simp] theorem setFlag_reg (fl : Flag) (b : Bool) (q : Reg) : (s.setFlag fl b).reg q = s.reg q := rfl
@[simp] theorem setFlag_peek (fl : Flag) (b : Bool) (q : Word) : (s.setFlag fl b).peek q = s.peek q := rfl

/-! ### `push` -/

@[simp] theorem push_pc (v : Word) : (s.push v).pc = s.pc := rfl
@[simp] theorem push_regs (v : Word) : (s.push v).regs = s.regs := rfl
@[simp] theorem push_f (v : Word) : (s.push v).f = s.f := rfl
@[simp] theorem push_spl (v : Word) : (s.push v).spl = s.spl + 1 := rfl
@[simp] theorem push_stk (v : Word) : (s.push v).stk = s.stk.set s.spl.toNat v s.spl.isLt := rfl
@[simp] theorem push_lines (v : Word) : (s.push v).lines = s.lines := rfl
@[simp] theorem push_ishadow (v : Word) : (s.push v).ishadow = s.ishadow := rfl
@[simp] theorem push_halted (v : Word) : (s.push v).halted = s.halted := rfl
@[simp] theorem push_faulted (v : Word) : (s.push v).faulted = s.faulted := rfl
@[simp] theorem push_icount (v : Word) : (s.push v).icount = s.icount := rfl
@[simp] theorem push_waitAcc (v : Word) : (s.push v).waitAcc = s.waitAcc := rfl
@[simp] theorem push_diagLog (v : Word) : (s.push v).diagLog = s.diagLog := rfl
@[simp] theorem push_cfg (v : Word) : (s.push v).cfg = s.cfg := rfl
@[simp] theorem push_map (v : Word) : (s.push v).map = s.map := rfl
@[simp] theorem push_mem (v : Word) : (s.push v).mem = s.mem := rfl
@[simp] theorem push_busAnswers (v : Word) : (s.push v).busAnswers = s.busAnswers := rfl
@[simp] theorem push_haltackAnswers (v : Word) : (s.push v).haltackAnswers = s.haltackAnswers := rfl
@[simp] theorem push_script (v : Word) : (s.push v).script = s.script := rfl
@[simp] theorem push_busLog (v : Word) : (s.push v).busLog = s.busLog := rfl
@[simp] theorem push_haltackLog (v : Word) : (s.push v).haltackLog = s.haltackLog := rfl
@[simp] theorem push_reg (v : Word) (q : Reg) : (s.push v).reg q = s.reg q := rfl
@[simp] theorem push_readF (v : Word) : (s.push v).readF = s.readF := rfl
@[simp] theorem push_flag (v : Word) (q : Flag) : (s.push v).flag q = s.flag q := rfl
@[simp] theorem push_peek (v : Word) (q : Word) : (s.push v).peek q = s.peek q := rfl

/-! ### `drop` -/

@[simp] theorem drop_pc : (s.drop).pc = s.pc := rfl
@[simp] theorem drop_regs : (s.drop).regs = s.regs := rfl
@[simp] theorem drop_f : (s.drop).f = s.f := rfl
@[simp] theorem drop_spl : (s.drop).spl = s.spl - 1 := rfl
@[simp] theorem drop_stk : (s.drop).stk = s.stk := rfl
@[simp] theorem drop_lines : (s.drop).lines = s.lines := rfl
@[simp] theorem drop_ishadow : (s.drop).ishadow = s.ishadow := rfl
@[simp] theorem drop_halted : (s.drop).halted = s.halted := rfl
@[simp] theorem drop_faulted : (s.drop).faulted = s.faulted := rfl
@[simp] theorem drop_icount : (s.drop).icount = s.icount := rfl
@[simp] theorem drop_waitAcc : (s.drop).waitAcc = s.waitAcc := rfl
@[simp] theorem drop_diagLog : (s.drop).diagLog = s.diagLog := rfl
@[simp] theorem drop_cfg : (s.drop).cfg = s.cfg := rfl
@[simp] theorem drop_map : (s.drop).map = s.map := rfl
@[simp] theorem drop_mem : (s.drop).mem = s.mem := rfl
@[simp] theorem drop_busAnswers : (s.drop).busAnswers = s.busAnswers := rfl
@[simp] theorem drop_haltackAnswers : (s.drop).haltackAnswers = s.haltackAnswers := rfl
@[simp] theorem drop_script : (s.drop).script = s.script := rfl
@[simp] theorem drop_busLog : (s.drop).busLog = s.busLog := rfl
@[simp] theorem drop_haltackLog : (s.drop).haltackLog = s.haltackLog := rfl
@[simp] theorem drop_reg (q : Reg) : (s.drop).reg q = s.reg q := rfl
@[simp] theorem drop_readF : (s.drop).readF = s.readF := rfl
@[simp] theorem drop_flag (q : Flag) : (s.drop).flag q = s.flag q := rfl
@[simp] theorem drop_peek (q : Word) : (s.drop).peek q = s.peek q := rfl

/-! ### `setLine` -/

@[simp] theorem setLine_pc (c : LineCall) : (s.setLine c).pc = s.pc := rfl
@[simp] theorem setLine_regs (c : LineCall) : (s.setLine c).regs = s.regs := rfl
@[simp] theorem setLine_f (c : LineCall) : (s.setLine c).f = s.f := rfl
@[simp] theorem setLine_spl (c : LineCall) : (s.setLine c).spl = s.spl := rfl
@[simp] theorem setLine_stk (c : LineCall) : (s.setLine c).stk = s.stk := rfl
@[simp] theorem setLine_lines (c : LineCall) : (s.setLine c).lines = s.lines.set c := rfl
@[simp] theorem setLine_ishadow (c : LineCall) : (s.setLine c).ishadow = s.ishadow := rfl
@[simp] theorem setLine_halted (c : LineCall) : (s.setLine c).halted = s.halted := rfl
@[simp] theorem setLine_faulted (c : LineCall) : (s.setLine c).faulted = s.faulted := rfl
@[simp] theorem setLine_icount (c : LineCall) : (s.setLine c).icount = s.icount := rfl
@[simp] theorem setLine_waitAcc (c : LineCall) : (s.setLine c).waitAcc = s.waitAcc := rfl
@[simp] theorem setLine_diagLog (c : LineCall) : (s.setLine c).diagLog = s.diagLog := rfl
@[simp] theorem setLine_cfg (c : LineCall) : (s.setLine c).cfg = s.cfg := rfl
@[simp] theorem setLine_map (c : LineCall) : (s.setLine c).map = s.map := rfl
@[simp] theorem setLine_mem (c : LineCall) : (s.setLine c).mem = s.mem := rfl
@[simp] theorem setLine_busAnswers (c : LineCall) : (s.setLine c).busAnswers = s.busAnswers := rfl
@[simp] theorem setLine_haltackAnswers (c : LineCall) : (s.setLine c).haltackAnswers = s.haltackAnswers := rfl
@[simp] theorem setLine_script (c : LineCall) : (s.setLine c).script = s.script := rfl
@[simp] theorem setLine_busLog (c : LineCall) : (s.setLine c).busLog = s.busLog := rfl
@[simp] theorem setLine_haltackLog (c : LineCall) : (s.setLine c).haltackLog = s.haltackLog := rfl
@[simp] theorem setLine_reg (c : LineCall) (q : Reg) : (s.setLine c).reg q = s.reg q := rfl
@[simp] theorem setLine_readF (c : LineCall) : (s.setLine c).readF = s.readF := rfl
@[simp] theorem setLine_flag (c : LineCall) (q : Flag) : (s.setLine c).flag q = s.flag q := rfl
@[simp] theorem setLine_peek (c : LineCall) (q : Word) : (s.setLine c).peek q = s.peek q := rfl

/-! ### `access` -/

@[simp] theorem access_pc (k : AccessKind) (a : Word) (v : Byte) : (s.access k a v).pc = s.pc := rfl
@[simp] theorem access_regs (k : AccessKind) (a : Word) (v : Byte) : (s.access k a v).regs = s.regs := rfl
@[simp] theorem access_f (k : AccessKind) (a : Word) (v : Byte) : (s.access k a v).f = s.f := rfl
@[simp] theorem access_spl (k : AccessKind) (a : Word) (v : Byte) : (s.access k a v).spl = s.spl := rfl
@[simp] theorem access_stk (k : AccessKind) (a : Word) (v : Byte) : (s.access k a v).stk = s.stk := rfl
@[simp] theorem access_lines (k : AccessKind) (a : Word) (v : Byte) : (s.access k a v).lines = s.lines.setAll s.nextAnswer.lines := rfl
@[simp] theorem access_ishadow (k : AccessKind) (a : Word) (v : Byte) : (s.access k a v).ishadow = s.ishadow := rfl
@[simp] theorem access_halted (k : AccessKind) (a : Word) (v : Byte) : (s.access k a v).halted = s.halted := rfl
@[simp] theorem access_faulted (k : AccessKind) (a : Word) (v : Byte) : (s.access k a v).faulted = s.faulted := rfl
@[simp] theorem access_icount (k : AccessKind) (a : Word) (v : Byte) : (s.access k a v).icount = s.icount := rfl
@[simp] theorem access_waitAcc (k : AccessKind) (a : Word) (v : Byte) : (s.access k a v).waitAcc = s.waitAcc + s.nextAnswer.wait := rfl
@[simp] theorem access_diagLog (k : AccessKind) (a : Word) (v : Byte) : (s.access k a v).diagLog = s.diagLog := rfl
@[simp] theorem access_cfg (k : AccessKind) (a : Word) (v : Byte) : (s.access k a v).cfg = s.cfg := rfl
@[simp] theorem access_map (k : AccessKind) (a : Word) (v : Byte) : (s.access k a v).map = s.map := rfl
@[simp] theorem access_mem (k : AccessKind) (a : Word) (v : Byte) : (s.access k a v).mem = s.mem := rfl
@[simp] theorem access_busAnswers (k : AccessKind) (a : Word) (v : Byte) : (s.access k a v).busAnswers = s.busAnswers.tail := rfl
@[simp] theorem access_haltackAnswers (k : AccessKind) (a : Word) (v : Byte) : (s.access k a v).haltackAnswers = s.haltackAnswers := rfl
@[simp] theorem access_script (k : AccessKind) (a : Word) (v : Byte) : (s.access k a v).script = s.script := rfl
@[simp] theorem access_busLog (k : AccessKind) (a : Word) (v : Byte) : (s.access k a v).busLog = s.busLog ++ [{ kind := k, addr := a, value := v, wait := s.nextAnswer.wait }] := rfl
@[simp] theorem access_haltackLog (k : AccessKind) (a : Word) (v : Byte) : (s.access k a v).haltackLog = s.haltackLog := rfl
@[simp] theorem access_reg (k : AccessKind) (a : Word) (v : Byte) (q : Reg) : (s.access k a v).reg q = s.reg q := rfl
@[simp] theorem access_readF (k : AccessKind) (a : Word) (v : Byte) : (s.access k a v).readF = s.readF := rfl
@[simp] theorem access_flag (k : AccessKind) (a : Word) (v : Byte) (q : Flag) : (s.access k a v).flag q = s.flag q := rfl
@[simp] theorem access_peek (k : AccessKind) (a : Word) (v : Byte) (q : Word) : (s.access k a v).peek q = s.peek q := rfl

/-! ### `memWrite` -/

@[simp] theorem memWrite_pc (a : Word) (v : Byte) : (s.memWrite a v).pc = s.pc := rfl
@[simp] theorem memWrite_regs (a : Word) (v : Byte) : (s.memWrite a v).regs = s.regs := rfl
@[simp] theorem memWrite_f (a : Word) (v : Byte) : (s.memWrite a v).f = s.f := rfl
@[simp] theorem memWrite_spl (a : Word) (v : Byte) : (s.memWrite a v).spl = s.spl := rfl
@[simp] theorem memWrite_stk (a : Word) (v : Byte) : (s.memWrite a v).stk = s.stk := rfl
@[simp] theorem memWrite_lines (a : Word) (v : Byte) : (s.memWrite a v).lines = s.lines.setAll s.nextAnswer.lines := rfl
@[simp] theorem memWrite_ishadow (a : Word) (v : Byte) : (s.memWrite a v).ishadow = s.ishadow := rfl
@[simp] theorem memWrite_halted (a : Word) (v : Byte) : (s.memWrite a v).halted = s.halted := rfl
@[simp] theorem memWrite_faulted (a : Word) (v : Byte) : (s.memWrite a v).faulted = s.faulted := rfl
@[simp] theorem memWrite_icount (a : Word) (v : Byte) : (s.memWrite a v).icount = s.icount := rfl
@[simp] theorem memWrite_waitAcc (a : Word) (v : Byte) : (s.memWrite a v).waitAcc = s.waitAcc + s.nextAnswer.wait := rfl
@[simp] theorem memWrite_diagLog (a : Word) (v : Byte) : (s.memWrite a v).diagLog = s.diagLog := rfl
@[simp] theorem memWrite_cfg (a : Word) (v : Byte) : (s.memWrite a v).cfg = s.cfg := rfl
@[simp] theorem memWrite_map (a : Word) (v : Byte) : (s.memWrite a v).map = s.map := rfl
@[simp] theorem memWrite_mem (a : Word) (v : Byte) : (s.memWrite a v).mem = s.storedMem a v := rfl
@[simp] theorem memWrite_busAnswers (a : Word) (v : Byte) : (s.memWrite a v).busAnswers = s.busAnswers.tail := rfl
@[simp] theorem memWrite_haltackAnswers (a : Word) (v : Byte) : (s.memWrite a v).haltackAnswers = s.haltackAnswers := rfl
@[simp] theorem memWrite_script (a : Word) (v : Byte) : (s.memWrite a v).script = s.script := rfl
@[simp] theorem memWrite_busLog (a : Word) (v : Byte) : (s.memWrite a v).busLog = s.busLog ++ [{ kind := .write, addr := a, value := v, wait := s.nextAnswer.wait }] := rfl
@[simp] theorem memWrite_haltackLog (a : Word) (v : Byte) : (s.memWrite a v).haltackLog = s.haltackLog := rfl
@[simp] theorem memWrite_reg (a : Word) (v : Byte) (q : Reg) : (s.memWrite a v).reg q = s.reg q := rfl
@[simp] theorem memWrite_readF (a : Word) (v : Byte) : (s.memWrite a v).readF = s.readF := rfl
@[simp] theorem memWrite_flag (a : Word) (v : Byte) (q : Flag) : (s.memWrite a v).flag q = s.flag q := rfl

/-! ### `spend` -/

@[simp] theorem spend_pc (n : Nat) : (s.spend n).pc = s.pc := rfl
@[simp] theorem spend_regs (n : Nat) : (s.spend n).regs = s.regs := rfl
@[simp] theorem spend_f (n : Nat) : (s.spend n).f = s.f := rfl
@[simp] theorem spend_spl (n : Nat) : (s.spend n).spl = s.spl := rfl
@[simp] theorem spend_stk (n : Nat) : (s.spend n).stk = s.stk := rfl
@[simp] theorem spend_lines (n : Nat) : (s.spend n).lines = s.lines := rfl
@[simp] theorem spend_ishadow (n : Nat) : (s.spend n).ishadow = s.ishadow := rfl
@[simp] theorem spend_halted (n : Nat) : (s.spend n).halted = s.halted := rfl
@[simp] theorem spend_faulted (n : Nat) : (s.spend n).faulted = s.faulted := rfl
@[simp] theorem spend_icount (n : Nat) : (s.spend n).icount = s.icount - n := rfl
@[simp] theorem spend_waitAcc (n : Nat) : (s.spend n).waitAcc = s.waitAcc := rfl
@[simp] theorem spend_diagLog (n : Nat) : (s.spend n).diagLog = s.diagLog := rfl
@[simp] theorem spend_cfg (n : Nat) : (s.spend n).cfg = s.cfg := rfl
@[simp] theorem spend_map (n : Nat) : (s.spend n).map = s.map := rfl
@[simp] theorem spend_mem (n : Nat) : (s.spend n).mem = s.mem := rfl
@[simp] theorem spend_busAnswers (n : Nat) : (s.spend n).busAnswers = s.busAnswers := rfl
@[simp] theorem spend_haltackAnswers (n : Nat) : (s.spend n).haltackAnswers = s.haltackAnswers := rfl
@[simp] theorem spend_script (n : Nat) : (s.spend n).script = s.script := rfl
@[simp] theorem spend_busLog (n : Nat) : (s.spend n).busLog = s.busLog := rfl
@[simp] theorem spend_haltackLog (n : Nat) : (s.spend n).haltackLog = s.haltackLog := rfl
@[simp] theorem spend_reg (n : Nat) (q : Reg) : (s.spend n).reg q = s.reg q := rfl
@[simp] theorem spend_readF (n : Nat) : (s.spend n).readF = s.readF := rfl
@[simp] theorem spend_flag (n : Nat) (q : Flag) : (s.spend n).flag q = s.flag q := rfl
@[simp] theorem spend_peek (n : Nat) (q : Word) : (s.spend n).peek q = s.peek q := rfl

/-! ### `charge` -/

@[simp] theorem charge_pc (n : Nat) : (s.charge n).pc = s.pc := rfl
@[simp] theorem charge_regs (n : Nat) : (s.charge n).regs = s.regs := rfl
@[simp] theorem charge_f (n : Nat) : (s.charge n).f = s.f := rfl
@[simp] theorem charge_spl (n : Nat) : (s.charge n).spl = s.spl := rfl
@[simp] theorem charge_stk (n : Nat) : (s.charge n).stk = s.stk := rfl
@[simp] theorem charge_lines (n : Nat) : (s.charge n).lines = s.lines := rfl
@[simp] theorem charge_ishadow (n : Nat) : (s.charge n).ishadow = s.ishadow := rfl
@[simp] theorem charge_halted (n : Nat) : (s.charge n).halted = s.halted := rfl
@[simp] theorem charge_faulted (n : Nat) : (s.charge n).faulted = s.faulted := rfl
@[simp] theorem charge_icount (n : Nat) : (s.charge n).icount = s.icount - n - s.waitAcc := rfl
@[simp] theorem charge_waitAcc (n : Nat) : (s.charge n).waitAcc = s.waitAcc := rfl
@[simp] theorem charge_diagLog (n : Nat) : (s.charge n).diagLog = s.diagLog := rfl
@[simp] theorem charge_cfg (n : Nat) : (s.charge n).cfg = s.cfg := rfl
@[simp] theorem charge_map (n : Nat) : (s.charge n).map = s.map := rfl
@[simp] theorem charge_mem (n : Nat) : (s.charge n).mem = s.mem := rfl
@[simp] theorem charge_busAnswers (n : Nat) : (s.charge n).busAnswers = s.busAnswers := rfl
@[simp] theorem charge_haltackAnswers (n : Nat) : (s.charge n).haltackAnswers = s.haltackAnswers := rfl
@[simp] theorem charge_script (n : Nat) : (s.charge n).script = s.script := rfl
@[simp] theorem charge_busLog (n : Nat) : (s.charge n).busLog = s.busLog := rfl
@[simp] theorem charge_haltackLog (n : Nat) : (s.charge n).haltackLog = s.haltackLog := rfl
@[simp] theorem charge_reg (n : Nat) (q : Reg) : (s.charge n).reg q = s.reg q := rfl
@[simp] theorem charge_readF (n : Nat) : (s.charge n).readF = s.readF := rfl
@[simp] theorem charge_flag (n : Nat) (q : Flag) : (s.charge n).flag q = s.flag q := rfl
@[simp] theorem charge_peek (n : Nat) (q : Word) : (s.charge n).peek q = s.peek q := rfl

/-! ### `diag` -/

@[simp] theorem diag_pc (a : Word) (o : Byte) : (s.diag a o).pc = s.pc := rfl
@[simp] theorem diag_regs (a : Word) (o : Byte) : (s.diag a o).regs = s.regs := rfl
@[simp] theorem diag_f (a : Word) (o : Byte) : (s.diag a o).f = s.f := rfl
@[simp] theorem diag_spl (a : Word) (o : Byte) : (s.diag a o).spl = s.spl := rfl
@[simp] theorem diag_stk (a : Word) (o : Byte) : (s.diag a o).stk = s.stk := rfl
@[simp] theorem diag_lines (a : Word) (o : Byte) : (s.diag a o).lines = s.lines := rfl
@[simp] theorem diag_ishadow (a : Word) (o : Byte) : (s.diag a o).ishadow = s.ishadow := rfl
@[simp] theorem diag_halted (a : Word) (o : Byte) : (s.diag a o).halted = s.halted := rfl
@[simp] theorem diag_faulted (a : Word) (o : Byte) : (s.diag a o).faulted = s.faulted := rfl
@[simp] theorem diag_icount (a : Word) (o : Byte) : (s.diag a o).icount = s.icount := rfl
@[simp] theorem diag_waitAcc (a : Word) (o : Byte) : (s.diag a o).waitAcc = s.waitAcc := rfl
@[simp] theorem diag_diagLog (a : Word) (o : Byte) : (s.diag a o).diagLog = s.diagLog ++ [{ kind := .illegalOpcode, addr := a, opcode := o }] := rfl
@[simp] theorem diag_cfg (a : Word) (o : Byte) : (s.diag a o).cfg = s.cfg := rfl
@[simp] theorem diag_map (a : Word) (o : Byte) : (s.diag a o).map = s.map := rfl
@[simp] theorem diag_mem (a : Word) (o : Byte) : (s.diag a o).mem = s.mem := rfl
@[simp] theorem diag_busAnswers (a : Word) (o : Byte) : (s.diag a o).busAnswers = s.busAnswers := rfl
@[simp] theorem diag_haltackAnswers (a : Word) (o : Byte) : (s.diag a o).haltackAnswers = s.haltackAnswers := rfl
@[simp] theorem diag_script (a : Word) (o : Byte) : (s.diag a o).script = s.script := rfl
@[simp] theorem diag_busLog (a : Word) (o : Byte) : (s.diag a o).busLog = s.busLog := rfl
@[simp] theorem diag_haltackLog (a : Word) (o : Byte) : (s.diag a o).haltackLog = s.haltackLog := rfl
@[simp] theorem diag_reg (a : Word) (o : Byte) (q : Reg) : (s.diag a o).reg q = s.reg q := rfl
@[simp] theorem diag_readF (a : Word) (o : Byte) : (s.diag a o).readF = s.readF := rfl
@[simp] theorem diag_flag (a : Word) (o : Byte) (q : Flag) : (s.diag a o).flag q = s.flag q := rfl
@[simp] theorem diag_peek (a : Word) (o : Byte) (q : Word) : (s.diag a o).peek q = s.peek q := rfl

/-! ### `setZS` -/

@[simp] theorem setZS_pc (v : Byte) : (s.setZS v).pc = s.pc := rfl
@[simp] theorem setZS_regs (v : Byte) : (s.setZS v).regs = s.regs := rfl
@[simp] theorem setZS_spl (v : Byte) : (s.setZS v).spl = s.spl := rfl
@[simp] theorem setZS_stk (v : Byte) : (s.setZS v).stk = s.stk := rfl
@[simp] theorem setZS_lines (v : Byte) : (s.setZS v).lines = s.lines := rfl
@[simp] theorem setZS_ishadow (v : Byte) : (s.setZS v).ishadow = s.ishadow := rfl
@[simp] theorem setZS_halted (v : Byte) : (s.setZS v).halted = s.halted := rfl
@[simp] theorem setZS_faulted (v : Byte) : (s.setZS v).faulted = s.faulted := rfl
@[simp] theorem setZS_icount (v : Byte) : (s.setZS v).icount = s.icount := rfl
@[simp] theorem setZS_waitAcc (v : Byte) : (s.setZS v).waitAcc = s.waitAcc := rfl
@[simp] theorem setZS_diagLog (v : Byte) : (s.setZS v).diagLog = s.diagLog := rfl
@[simp] theorem setZS_cfg (v : Byte) : (s.setZS v).cfg = s.cfg := rfl
@[simp] theorem setZS_map (v : Byte) : (s.setZS v).map = s.map := rfl
@[simp] theorem setZS_mem (v : Byte) : (s.setZS v).mem = s.mem := rfl
@[simp] theorem setZS_busAnswers (v : Byte) : (s.setZS v).busAnswers = s.busAnswers := rfl
@[simp] theorem setZS_haltackAnswers (v : Byte) : (s.setZS v).haltackAnswers = s.haltackAnswers := rfl
@[simp] theorem setZS_script (v : Byte) : (s.setZS v).script = s.script := rfl
@[simp] theorem setZS_busLog (v : Byte) : (s.setZS v).busLog = s.busLog := rfl
@[simp] theorem setZS_haltackLog (v : Byte) : (s.setZS v).haltackLog = s.haltackLog := rfl
@[simp] theorem setZS_reg (v : Byte) (q : Reg) : (s.setZS v).reg q = s.reg q := rfl
@[simp] theorem setZS_peek (v : Byte) (q : Word) : (s.setZS v).peek q = s.peek q := rfl

/-! ### `setCZSV` -/

@[simp] theorem setCZSV_pc (r : AluResult) : (s.setCZSV r).pc = s.pc := rfl
@[simp] theorem setCZSV_regs (r : AluResult) : (s.setCZSV r).regs = s.regs := rfl
@[simp] theorem setCZSV_spl (r : AluResult) : (s.setCZSV r).spl = s.spl := rfl
@[simp] theorem setCZSV_stk (r : AluResult) : (s.setCZSV r).stk = s.stk := rfl
@[simp] theorem setCZSV_lines (r : AluResult) : (s.setCZSV r).lines = s.lines := rfl
@[simp] theorem setCZSV_ishadow (r : AluResult) : (s.setCZSV r).ishadow = s.ishadow := rfl
@[simp] theorem setCZSV_halted (r : AluResult) : (s.setCZSV r).halted = s.halted := rfl
@[simp] theorem setCZSV_faulted (r : AluResult) : (s.setCZSV r).faulted = s.faulted := rfl
@[simp] theorem setCZSV_icount (r : AluResult) : (s.setCZSV r).icount = s.icount := rfl
@[simp] theorem setCZSV_waitAcc (r : AluResult) : (s.setCZSV r).waitAcc = s.waitAcc := rfl
@[simp] theorem setCZSV_diagLog (r : AluResult) : (s.setCZSV r).diagLog = s.diagLog := rfl
@[simp] theorem setCZSV_cfg (r : AluResult) : (s.setCZSV r).cfg = s.cfg := rfl
@[simp] theorem setCZSV_map (r : AluResult) : (s.setCZSV r).map = s.map := rfl
@[simp] theorem setCZSV_mem (r : AluResult) : (s.setCZSV r).mem = s.mem := rfl
@[simp] theorem setCZSV_busAnswers (r : AluResult) : (s.setCZSV r).busAnswers = s.busAnswers := rfl
@[simp] theorem setCZSV_haltackAnswers (r : AluResult) : (s.setCZSV r).haltackAnswers = s.haltackAnswers := rfl
@[simp] theorem setCZSV_script (r : AluResult) : (s.setCZSV r).script = s.script := rfl
@[simp] theorem setCZSV_busLog (r : AluResult) : (s.setCZSV r).busLog = s.busLog := rfl
@[simp] theorem setCZSV_haltackLog (r : AluResult) : (s.setCZSV r).haltackLog = s.haltackLog := rfl
@[simp] theorem setCZSV_reg (r : AluResult) (q : Reg) : (s.setCZSV r).reg q = s.reg q := rfl
@[simp] theorem setCZSV_peek (r : AluResult) (q : Word) : (s.setCZSV r).peek q = s.peek q := rfl

/-! ### `putZS` -/

@[simp] theorem putZS_pc (r : Reg) (v : Byte) : (s.putZS r v).pc = s.pc := rfl
@[simp] theorem putZS_regs (r : Reg) (v : Byte) : (s.putZS r v).regs = s.regs.set r v := rfl
@[simp] theorem putZS_spl (r : Reg) (v : Byte) : (s.putZS r v).spl = s.spl := rfl
@[simp] theorem putZS_stk (r : Reg) (v : Byte) : (s.putZS r v).stk = s.stk := rfl
@[simp] theorem putZS_lines (r : Reg) (v : Byte) : (s.putZS r v).lines = s.lines := rfl
@[simp] theorem putZS_ishadow (r : Reg) (v : Byte) : (s.putZS r v).ishadow = s.ishadow := rfl
@[simp] theorem putZS_halted (r : Reg) (v : Byte) : (s.putZS r v).halted = s.halted := rfl
@[simp] theorem putZS_faulted (r : Reg) (v : Byte) : (s.putZS r v).faulted = s.faulted := rfl
@[simp] theorem putZS_icount (r : Reg) (v : Byte) : (s.putZS r v).icount = s.icount := rfl
@[simp] theorem putZS_waitAcc (r : Reg) (v : Byte) : (s.putZS r v).waitAcc = s.waitAcc := rfl
@[simp] theorem putZS_diagLog (r : Reg) (v : Byte) : (s.putZS r v).diagLog = s.diagLog := rfl
@[simp] theorem putZS_cfg (r : Reg) (v : Byte) : (s.putZS r v).cfg = s.cfg := rfl
@[simp] theorem putZS_map (r : Reg) (v : Byte) : (s.putZS r v).map = s.map := rfl
@[simp] theorem putZS_mem (r : Reg) (v : Byte) : (s.putZS r v).mem = s.mem := rfl
@[simp] theorem putZS_busAnswers (r : Reg) (v : Byte) : (s.putZS r v).busAnswers = s.busAnswers := rfl
@[simp] theorem putZS_haltackAnswers (r : Reg) (v : Byte) : (s.putZS r v).haltackAnswers = s.haltackAnswers := rfl
@[simp] theorem putZS_script (r : Reg) (v : Byte) : (s.putZS r v).script = s.script := rfl
@[simp] theorem putZS_busLog (r : Reg) (v : Byte) : (s.putZS r v).busLog = s.busLog := rfl
@[simp] theorem putZS_haltackLog (r : Reg) (v : Byte) : (s.putZS r v).haltackLog = s.haltackLog := rfl
@[simp] theorem putZS_peek (r : Reg) (v : Byte) (q : Word) : (s.putZS r v).peek q = s.peek q := rfl

/-! ### `putShift` -/

@[simp] theorem putShift_pc (v : Byte) (b : Bool) : (s.putShift v b).pc = s.pc := rfl
@[simp] theorem putShift_regs (v : Byte) (b : Bool) : (s.putShift v b).regs = s.regs.set .a v := rfl
@[simp] theorem putShift_spl (v : Byte) (b : Bool) : (s.putShift v b).spl = s.spl := rfl
@[simp] theorem putShift_stk (v : Byte) (b : Bool) : (s.putShift v b).stk = s.stk := rfl
@[simp] theorem putShift_lines (v : Byte) (b : Bool) : (s.putShift v b).lines = s.lines := rfl
@[simp] theorem putShift_ishadow (v : Byte) (b : Bool) : (s.putShift v b).ishadow = s.ishadow := rfl
@[simp] theorem putShift_halted (v : Byte) (b : Bool) : (s.putShift v b).halted = s.halted := rfl
@[simp] theorem putShift_faulted (v : Byte) (b : Bool) : (s.putShift v b).faulted = s.faulted := rfl
@[simp] theorem putShift_icount (v : Byte) (b : Bool) : (s.putShift v b).icount = s.icount := rfl
@[simp] theorem putShift_waitAcc (v : Byte) (b : Bool) : (s.putShift v b).waitAcc = s.waitAcc := rfl
@[simp] theorem putShift_diagLog (v : Byte) (b : Bool) : (s.putShift v b).diagLog = s.diagLog := rfl
@[simp] theorem putShift_cfg (v : Byte) (b : Bool) : (s.putShift v b).cfg = s.cfg := rfl
@[simp] theorem putShift_map (v : Byte) (b : Bool) : (s.putShift v b).map = s.map := rfl
@[simp] theorem putShift_mem (v : Byte) (b : Bool) : (s.putShift v b).mem = s.mem := rfl
@[simp] theorem putShift_busAnswers (v : Byte) (b : Bool) : (s.putShift v b).busAnswers = s.busAnswers := rfl
@[simp] theorem putShift_haltackAnswers (v : Byte) (b : Bool) : (s.putShift v b).haltackAnswers = s.haltackAnswers := rfl
@[simp] theorem putShift_script (v : Byte) (b : Bool) : (s.putShift v b).script = s.script := rfl
@[simp] theorem putShift_busLog (v : Byte) (b : Bool) : (s.putShift v b).busLog = s.busLog := rfl
@[simp] theorem putShift_haltackLog (v : Byte) (b : Bool) : (s.putShift v b).haltackLog = s.haltackLog := rfl
@[simp] theorem putShift_peek (v : Byte) (b : Bool) (q : Word) : (s.putShift v b).peek q = s.peek q := rfl

/-! ### `aluAdd` -/

@[simp] theorem aluAdd_pc (b : Byte) (cin : Bool) : (s.aluAdd b cin).pc = s.pc := rfl
@[simp] theorem aluAdd_regs (b : Byte) (cin : Bool) : (s.aluAdd b cin).regs = s.regs.set .a (add8 (s.reg .a) b cin).res := rfl
@[simp] theorem aluAdd_spl (b : Byte) (cin : Bool) : (s.aluAdd b cin).spl = s.spl := rfl
@[simp] theorem aluAdd_stk (b : Byte) (cin : Bool) : (s.aluAdd b cin).stk = s.stk := rfl
@[simp] theorem aluAdd_lines (b : Byte) (cin : Bool) : (s.aluAdd b cin).lines = s.lines := rfl
@[simp] theorem aluAdd_ishadow (b : Byte) (cin : Bool) : (s.aluAdd b cin).ishadow = s.ishadow := rfl
@[simp] theorem aluAdd_halted (b : Byte) (cin : Bool) : (s.aluAdd b cin).halted = s.halted := rfl
@[simp] theorem aluAdd_faulted (b : Byte) (cin : Bool) : (s.aluAdd b cin).faulted = s.faulted := rfl
@[simp] theorem aluAdd_icount (b : Byte) (cin : Bool) : (s.aluAdd b cin).icount = s.icount := rfl
@[simp] theorem aluAdd_waitAcc (b : Byte) (cin : Bool) : (s.aluAdd b cin).waitAcc = s.waitAcc := rfl
@[simp] theorem aluAdd_diagLog (b : Byte) (cin : Bool) : (s.aluAdd b cin).diagLog = s.diagLog := rfl
@[simp] theorem aluAdd_cfg (b : Byte) (cin : Bool) : (s.aluAdd b cin).cfg = s.cfg := rfl
@[simp] theorem aluAdd_map (b : Byte) (cin : Bool) : (s.aluAdd b cin).map = s.map := rfl
@[simp] theorem aluAdd_mem (b : Byte) (cin : Bool) : (s.aluAdd b cin).mem = s.mem := rfl
@[simp] theorem aluAdd_busAnswers (b : Byte) (cin : Bool) : (s.aluAdd b cin).busAnswers = s.busAnswers := rfl
@[simp] theorem aluAdd_haltackAnswers (b : Byte) (cin : Bool) : (s.aluAdd b cin).haltackAnswers = s.haltackAnswers := rfl
@[simp] theorem aluAdd_script (b : Byte) (cin : Bool) : (s.aluAdd b cin).script = s.script := rfl
@[simp] theorem aluAdd_busLog (b : Byte) (cin : Bool) : (s.aluAdd b cin).busLog = s.busLog := rfl
@[simp] theorem aluAdd_haltackLog (b : Byte) (cin : Bool) : (s.aluAdd b cin).haltackLog = s.haltackLog := rfl
@[simp] theorem aluAdd_peek (b : Byte) (cin : Bool) (q : Word) : (s.aluAdd b cin).peek q = s.peek q := rfl

/-! ### `aluSub` -/

@[simp] theorem aluSub_pc (b : Byte) (bin : Bool) : (s.aluSub b bin).pc = s.pc := rfl
@[simp] theorem aluSub_regs (b : Byte) (bin : Bool) : (s.aluSub b bin).regs = s.regs.set .a (sub8 (s.reg .a) b bin).res := rfl
@[simp] theorem aluSub_spl (b : Byte) (bin : Bool) : (s.aluSub b bin).spl = s.spl := rfl
@[simp] theorem aluSub_stk (b : Byte) (bin : Bool) : (s.aluSub b bin).stk = s.stk := rfl
@[simp] theorem aluSub_lines (b : Byte) (bin : Bool) : (s.aluSub b bin).lines = s.lines := rfl
@[simp] theorem aluSub_ishadow (b : Byte) (bin : Bool) : (s.aluSub b bin).ishadow = s.ishadow := rfl
@[simp] theorem aluSub_halted (b : Byte) (bin : Bool) : (s.aluSub b bin).halted = s.halted := rfl
@[simp] theorem aluSub_faulted (b : Byte) (bin : Bool) : (s.aluSub b bin).faulted = s.faulted := rfl
@[simp] theorem aluSub_icount (b : Byte) (bin : Bool) : (s.aluSub b bin).icount = s.icount := rfl
@[simp] theorem aluSub_waitAcc (b : Byte) (bin : Bool) : (s.aluSub b bin).waitAcc = s.waitAcc := rfl
@[simp] theorem aluSub_diagLog (b : Byte) (bin : Bool) : (s.aluSub b bin).diagLog = s.diagLog := rfl
@[simp] theorem aluSub_cfg (b : Byte) (bin : Bool) : (s.aluSub b bin).cfg = s.cfg := rfl
@[simp] theorem aluSub_map (b : Byte) (bin : Bool) : (s.aluSub b bin).map = s.map := rfl
@[simp] theorem aluSub_mem (b : Byte) (bin : Bool) : (s.aluSub b bin).mem = s.mem := rfl
@[simp] theorem aluSub_busAnswers (b : Byte) (bin : Bool) : (s.aluSub b bin).busAnswers = s.busAnswers := rfl
@[simp] theorem aluSub_haltackAnswers (b : Byte) (bin : Bool) : (s.aluSub b bin).haltackAnswers = s.haltackAnswers := rfl
@[simp] theorem aluSub_script (b : Byte) (bin : Bool) : (s.aluSub b bin).script = s.script := rfl
@[simp] theorem aluSub_busLog (b : Byte) (bin : Bool) : (s.aluSub b bin).busLog = s.busLog := rfl
@[simp] theorem aluSub_haltackLog (b : Byte) (bin : Bool) : (s.aluSub b bin).haltackLog = s.haltackLog := rfl
@[simp] theorem aluSub_peek (b : Byte) (bin : Bool) (q : Word) : (s.aluSub b bin).peek q = s.peek q := rfl

/-! ### `aluCmp` -/

@[simp] theorem aluCmp_pc (b : Byte) : (s.aluCmp b).pc = s.pc := rfl
@[simp] theorem aluCmp_regs (b : Byte) : (s.aluCmp b).regs = s.regs := rfl
@[simp] theorem aluCmp_spl (b : Byte) : (s.aluCmp b).spl = s.spl := rfl
@[simp] theorem aluCmp_stk (b : Byte) : (s.aluCmp b).stk = s.stk := rfl
@[simp] theorem aluCmp_lines (b : Byte) : (s.aluCmp b).lines = s.lines := rfl
@[simp] theorem aluCmp_ishadow (b : Byte) : (s.aluCmp b).ishadow = s.ishadow := rfl
@[simp] theorem aluCmp_halted (b : Byte) : (s.aluCmp b).halted = s.halted := rfl
@[simp] theorem aluCmp_faulted (b : Byte) : (s.aluCmp b).faulted = s.faulted := rfl
@[simp] theorem aluCmp_icount (b : Byte) : (s.aluCmp b).icount = s.icount := rfl
@[simp] theorem aluCmp_waitAcc (b : Byte) : (s.aluCmp b).waitAcc = s.waitAcc := rfl
@[simp] theorem aluCmp_diagLog (b : Byte) : (s.aluCmp b).diagLog = s.diagLog := rfl
@[simp] theorem aluCmp_cfg (b : Byte) : (s.aluCmp b).cfg = s.cfg := rfl
@[simp] theorem aluCmp_map (b : Byte) : (s.aluCmp b).map = s.map := rfl
@[simp] theorem aluCmp_mem (b : Byte) : (s.aluCmp b).mem = s.mem := rfl
@[simp] theorem aluCmp_busAnswers (b : Byte) : (s.aluCmp b).busAnswers = s.busAnswers := rfl
@[simp] theorem aluCmp_haltackAnswers (b : Byte) : (s.aluCmp b).haltackAnswers = s.haltackAnswers := rfl
@[simp] theorem aluCmp_script (b : Byte) : (s.aluCmp b).script = s.script := rfl
@[simp] theorem aluCmp_busLog (b : Byte) : (s.aluCmp b).busLog = s.busLog := rfl
@[simp] theorem aluCmp_haltackLog (b : Byte) : (s.aluCmp b).haltackLog = s.haltackLog := rfl
@[simp] theorem aluCmp_reg (b : Byte) (q : Reg) : (s.aluCmp b).reg q = s.reg q := rfl
@[simp] theorem aluCmp_peek (b : Byte) (q : Word) : (s.aluCmp b).peek q = s.peek q := rfl

/-! ### `aluAdn` -/

@[simp] theorem aluAdn_pc (b : Byte) : (s.aluAdn b).pc = s.pc := rfl
@[simp] theorem aluAdn_regs (b : Byte) : (s.aluAdn b).regs = s.regs.set .a (s.reg .a + b) := rfl
@[simp] theorem aluAdn_spl (b : Byte) : (s.aluAdn b).spl = s.spl := rfl
@[simp] theorem aluAdn_stk (b : Byte) : (s.aluAdn b).stk = s.stk := rfl
@[simp] theorem aluAdn_lines (b : Byte) : (s.aluAdn b).lines = s.lines := rfl
@[simp] theorem aluAdn_ishadow (b : Byte) : (s.aluAdn b).ishadow = s.ishadow := rfl
@[simp] theorem aluAdn_halted (b : Byte) : (s.aluAdn b).halted = s.halted := rfl
@[simp] theorem aluAdn_faulted (b : Byte) : (s.aluAdn b).faulted = s.faulted := rfl
@[simp] theorem aluAdn_icount (b : Byte) : (s.aluAdn b).icount = s.icount := rfl
@[simp] theorem aluAdn_waitAcc (b : Byte) : (s.aluAdn b).waitAcc = s.waitAcc := rfl
@[simp] theorem aluAdn_diagLog (b : Byte) : (s.aluAdn b).diagLog = s.diagLog := rfl
@[simp] theorem aluAdn_cfg (b : Byte) : (s.aluAdn b).cfg = s.cfg := rfl
@[simp] theorem aluAdn_map (b : Byte) : (s.aluAdn b).map = s.map := rfl
@[simp] theorem aluAdn_mem (b : Byte) : (s.aluAdn b).mem = s.mem := rfl
@[simp] theorem aluAdn_busAnswers (b : Byte) : (s.aluAdn b).busAnswers = s.busAnswers := rfl
@[simp] theorem aluAdn_haltackAnswers (b : Byte) : (s.aluAdn b).haltackAnswers = s.haltackAnswers := rfl
@[simp] theorem aluAdn_script (b : Byte) : (s.aluAdn b).script = s.script := rfl
@[simp] theorem aluAdn_busLog (b : Byte) : (s.aluAdn b).busLog = s.busLog := rfl
@[simp] theorem aluAdn_haltackLog (b : Byte) : (s.aluAdn b).haltackLog = s.haltackLog := rfl
@[simp] theorem aluAdn_peek (b : Byte) (q : Word) : (s.aluAdn b).peek q = s.peek q := rfl

/-! ### `returnFromInterrupt` -/

@[simp] theorem returnFromInterrupt_pc : (s.returnFromInterrupt).pc = s.drop.top := rfl
@[simp] theorem returnFromInterrupt_regs : (s.returnFromInterrupt).regs = s.regs := rfl
@[simp] theorem returnFromInterrupt_f : (s.returnFromInterrupt).f = s.top.setWidth 8 &&& flagMask := rfl
@[simp] theorem returnFromInterrupt_spl : (s.returnFromInterrupt).spl = s.spl - 1 - 1 := rfl
@[simp] theorem returnFromInterrupt_stk : (s.returnFromInterrupt).stk = s.stk := rfl
@[simp] theorem returnFromInterrupt_lines : (s.returnFromInterrupt).lines = s.lines := rfl
@[simp] theorem returnFromInterrupt_ishadow : (s.returnFromInterrupt).ishadow = s.ishadow := rfl
@[simp] theorem returnFromInterrupt_halted : (s.returnFromInterrupt).halted = s.halted := rfl
@[simp] theorem returnFromInterrupt_faulted : (s.returnFromInterrupt).faulted = s.faulted := rfl
@[simp] theorem returnFromInterrupt_icount : (s.returnFromInterrupt).icount = s.icount := rfl
@[simp] theorem returnFromInterrupt_waitAcc : (s.returnFromInterrupt).waitAcc = s.waitAcc := rfl
@[simp] theorem returnFromInterrupt_diagLog : (s.returnFromInterrupt).diagLog = s.diagLog := rfl
@[simp] theorem returnFromInterrupt_cfg : (s.returnFromInterrupt).cfg = s.cfg := rfl
@[simp] theorem returnFromInterrupt_map : (s.returnFromInterrupt).map = s.map := rfl
@[simp] theorem returnFromInterrupt_mem : (s.returnFromInterrupt).mem = s.mem := rfl
@[simp] theorem returnFromInterrupt_busAnswers : (s.returnFromInterrupt).busAnswers = s.busAnswers := rfl
@[simp] theorem returnFromInterrupt_haltackAnswers : (s.returnFromInterrupt).haltackAnswers = s.haltackAnswers := rfl
@[simp] theorem returnFromInterrupt_script : (s.returnFromInterrupt).script = s.script := rfl
@[simp] theorem returnFromInterrupt_busLog : (s.returnFromInterrupt).busLog = s.busLog := rfl
@[simp] theorem returnFromInterrupt_haltackLog : (s.returnFromInterrupt).haltackLog = s.haltackLog := rfl
@[simp] theorem returnFromInterrupt_reg (q : Reg) : (s.returnFromInterrupt).reg q = s.reg q := rfl
@[simp] theorem returnFromInterrupt_peek (q : Word) : (s.returnFromInterrupt).peek q = s.peek q := rfl

/-! ### `acknowledge_nmi` -/

@[simp] theorem acknowledge_nmi_pc : (s.acknowledge .nmi).pc = s.pc := rfl
@[simp] theorem acknowledge_nmi_regs : (s.acknowledge .nmi).regs = s.regs := rfl
@[simp] theorem acknowledge_nmi_f : (s.acknowledge .nmi).f = s.f := rfl
@[simp] theorem acknowledge_nmi_spl : (s.acknowledge .nmi).spl = s.spl := rfl
@[simp] theorem acknowledge_nmi_stk : (s.acknowledge .nmi).stk = s.stk := rfl
@[simp] theorem acknowledge_nmi_lines : (s.acknowledge .nmi).lines = { s.lines with nmiPending := false } := rfl
@[simp] theorem acknowledge_nmi_ishadow : (s.acknowledge .nmi).ishadow = s.ishadow := rfl
@[simp] theorem acknowledge_nmi_halted : (s.acknowledge .nmi).halted = s.halted := rfl
@[simp] theorem acknowledge_nmi_faulted : (s.acknowledge .nmi).faulted = s.faulted := rfl
@[simp] theorem acknowledge_nmi_icount : (s.acknowledge .nmi).icount = s.icount := rfl
@[simp] theorem acknowledge_nmi_waitAcc : (s.acknowledge .nmi).waitAcc = s.waitAcc := rfl
@[simp] theorem acknowledge_nmi_diagLog : (s.acknowledge .nmi).diagLog = s.diagLog := rfl
@[simp] theorem acknowledge_nmi_cfg : (s.acknowledge .nmi).cfg = s.cfg := rfl
@[simp] theorem acknowledge_nmi_map : (s.acknowledge .nmi).map = s.map := rfl
@[simp] theorem acknowledge_nmi_mem : (s.acknowledge .nmi).mem = s.mem := rfl
@[simp] theorem acknowledge_nmi_busAnswers : (s.acknowledge .nmi).busAnswers = s.busAnswers := rfl
@[simp] theorem acknowledge_nmi_haltackAnswers : (s.acknowledge .nmi).haltackAnswers = s.haltackAnswers := rfl
@[simp] theorem acknowledge_nmi_script : (s.acknowledge .nmi).script = s.script := rfl
@[simp] theorem acknowledge_nmi_busLog : (s.acknowledge .nmi).busLog = s.busLog := rfl
@[simp] theorem acknowledge_nmi_haltackLog : (s.acknowledge .nmi).haltackLog = s.haltackLog := rfl
@[simp] theorem acknowledge_nmi_reg (q : Reg) : (s.acknowledge .nmi).reg q = s.reg q := rfl
@[simp] theorem acknowledge_nmi_readF : (s.acknowledge .nmi).readF = s.readF := rfl
@[simp] theorem acknowledge_nmi_flag (q : Flag) : (s.acknowledge .nmi).flag q = s.flag q := rfl
@[simp] theorem acknowledge_nmi_peek (q : Word) : (s.acknowledge .nmi).peek q = s.peek q := rfl

end Sys2Proof.Machine
end

