-- ==== Sys2Proof/Laws/Memory.lean ====
section
/-! SUPPORT. The laws of memory: reading after writing, and the canonical form, which every operation keeps. -/

namespace Sys2Proof.Machine

theorem Memory.read_cons (k : Nat) (v : Byte) (m : Memory) (a : Nat) :
    Memory.read ((k, v) :: m) a = if a = k then v else Memory.read m a := rfl

/-- A list in rising order above `l` has nothing at `l` or below. -/
theorem Memory.read_of_rising_le {m : Memory} {l a : Nat} (h : Memory.rising (some l) m = true) (ha : a ≤ l) :
    Memory.read m a = Memory.unlisted := by
  induction m generalizing l with
  | nil => rfl
  | cons c m ih =>
    obtain ⟨k, w⟩ := c
    simp only [Memory.rising, Bool.and_eq_true, decide_eq_true_eq] at h
    rw [Memory.read_cons, if_neg (by omega)]
    exact ih h.2 (by omega)

/-- Rising above a bound is rising above any lower one. -/
theorem Memory.rising_weaken {m : Memory} {l l' : Nat} (h : Memory.rising (some l) m = true) (hl : l' ≤ l) :
    Memory.rising (some l') m = true := by
  cases m with
  | nil => rfl
  | cons c m =>
    obtain ⟨k, w⟩ := c
    simp only [Memory.rising, Bool.and_eq_true, decide_eq_true_eq] at h ⊢
    exact ⟨by omega, h.2⟩

theorem Memory.rising_none {m : Memory} {l : Option Nat} (h : Memory.rising l m = true) : Memory.rising none m = true := by
  cases m with
  | nil => rfl
  | cons c m =>
    obtain ⟨k, w⟩ := c
    simp only [Memory.rising, Bool.and_eq_true] at h ⊢
    exact ⟨trivial, h.2⟩

/-- A write above `l` stays above `l`. -/
theorem Memory.rising_write {m : Memory} {l a : Nat} {v : Byte} (h : Memory.rising (some l) m = true) (ha : l < a) :
    Memory.rising (some l) (Memory.write m a v) = true := by
  induction m generalizing l with
  | nil =>
    unfold Memory.write
    split <;> simp [Memory.rising, ha]
  | cons c m ih =>
    obtain ⟨k, w⟩ := c
    have h' := h
    simp only [Memory.rising, Bool.and_eq_true, decide_eq_true_eq] at h'
    unfold Memory.write
    split
    · split
      · exact h
      · simp only [Memory.rising, Bool.and_eq_true, decide_eq_true_eq]
        exact ⟨ha, by omega, h'.2⟩
    · split
      · split
        · exact Memory.rising_weaken h'.2 (by omega)
        · simp only [Memory.rising, Bool.and_eq_true, decide_eq_true_eq]
          exact ⟨ha, by subst_vars; exact h'.2⟩
      · simp only [Memory.rising, Bool.and_eq_true, decide_eq_true_eq]
        exact ⟨h'.1, ih h'.2 (by omega)⟩

/-- What a write adds to a list that passes an entry-wise check. -/
theorem Memory.all_write {p : Host.Cell → Bool} {m : Memory} {a : Nat} {v : Byte} (h : m.all p = true)
    (hv : v ≠ Memory.unlisted → p (a, v) = true) : (Memory.write m a v).all p = true := by
  induction m with
  | nil =>
    unfold Memory.write
    split
    · rfl
    · simp [hv ‹_›]
  | cons c m ih =>
    obtain ⟨k, w⟩ := c
    simp only [List.all_cons, Bool.and_eq_true] at h
    unfold Memory.write
    repeat' split
    all_goals simp_all

/-- A write keeps the canonical form. -/
theorem Memory.wf_write {m : Memory} {a : Nat} {v : Byte} (h : m.wf = true) (ha : a < 65536) :
    (Memory.write m a v).wf = true := by
  unfold Memory.wf at h ⊢
  rw [Bool.and_eq_true] at h ⊢
  refine ⟨?_, Memory.all_write h.2 (fun hv => by simp [ha, hv])⟩
  cases m with
  | nil =>
    unfold Memory.write
    split <;> rfl
  | cons c m =>
    obtain ⟨k, w⟩ := c
    have h1 : Memory.rising (some k) m = true := by
      have := h.1
      simp only [Memory.rising, Bool.and_eq_true] at this
      exact this.2
    unfold Memory.write
    split
    · split
      · exact h.1
      · simp only [Memory.rising, Bool.and_eq_true, decide_eq_true_eq]
        exact ⟨trivial, by omega, h1⟩
    · split
      · split
        · exact Memory.rising_none h1
        · subst_vars
          simp only [Memory.rising, Bool.and_eq_true]
          exact ⟨trivial, h1⟩
      · simp only [Memory.rising, Bool.and_eq_true]
        exact ⟨trivial, Memory.rising_write h1 (by omega)⟩

/-- Reading after a write, in a list in rising order. -/
theorem Memory.read_write_of_rising {m : Memory} {l : Option Nat} {a b : Nat} {v : Byte}
    (h : Memory.rising l m = true) : (Memory.write m a v).read b = if b = a then v else m.read b := by
  induction m generalizing l with
  | nil =>
    unfold Memory.write
    split <;> rename_i hv
    · split <;> simp [Memory.read, hv]
    · simp [Memory.read]
  | cons c m ih =>
    obtain ⟨k, w⟩ := c
    have h1 : Memory.rising (some k) m = true := by
      simp only [Memory.rising, Bool.and_eq_true] at h
      exact h.2
    unfold Memory.write
    split <;> rename_i hak
    · split <;> rename_i hv
      · split <;> rename_i hb
        · subst hb
          rw [Memory.read_cons, if_neg (by omega), Memory.read_of_rising_le h1 (by omega), hv]
        · rfl
      · rw [Memory.read_cons]
    · split <;> rename_i hak'
      · subst hak'
        split <;> rename_i hv
        · split <;> rename_i hb
          · subst hb
            rw [Memory.read_of_rising_le h1 le_rfl, hv]
          · rw [Memory.read_cons, if_neg hb]
        · rw [Memory.read_cons, Memory.read_cons]
          split <;> rfl
      · rw [Memory.read_cons, Memory.read_cons, ih h1]
        by_cases hbk : b = k
        · subst hbk
          rw [if_pos rfl, if_pos rfl, if_neg (by omega)]
        · rw [if_neg hbk, if_neg hbk]

/-- A memory in canonical form reads what was last written, and every other address as before. -/
theorem Memory.read_write {m : Memory} (h : m.wf = true) (a b : Nat) (v : Byte) :
    (m.write a v).read b = if b = a then v else m.read b := by
  unfold Memory.wf at h
  rw [Bool.and_eq_true] at h
  exact Memory.read_write_of_rising h.1

/-- The store of a machine keeps the canonical form. -/
theorem storedMem_wf {s : State} (h : s.mem.wf = true) (a : Word) (v : Byte) : (s.storedMem a v).wf = true := by
  unfold State.storedMem
  split
  · exact Memory.wf_write h a.isLt
  · exact h
  · exact h
  · exact h

theorem memWrite_mem_wf {s : State} (h : s.mem.wf = true) (a : Word) (v : Byte) : (s.memWrite a v).mem.wf = true :=
  storedMem_wf h a v

/-- The memory of the reset state is in canonical form. -/
theorem reset_mem_wf : State.reset.mem.wf = true := rfl

end Sys2Proof.Machine
end

