-- ==== Sys2Proof/Laws/Ops.lean ====
section
/-! SUPPORT. What each shared operation can do, said once. -/

namespace Sys2Proof.Machine

variable (s : State)

/-! ## Registers -/

@[simp] theorem regs_get_set (g : Regs) (r q : Reg) (v : Byte) : (g.set r v).get q = if q = r then v else g.get q := by
  cases r <;> cases q <;> rfl

@[simp] theorem reg_setReg (r q : Reg) (v : Byte) : (s.setReg r v).reg q = if q = r then v else s.reg q :=
  regs_get_set s.regs r q v

/-! ## Flags -/

theorem readF_high : s.readF &&& 0xE0 = 0 := by
  unfold State.readF flagMask
  rw [BitVec.and_assoc]
  exact BitVec.and_zero

@[simp] theorem readF_setF (v : Byte) : (s.setF v).readF = v &&& flagMask := by
  unfold State.readF State.setF
  rw [BitVec.and_assoc, BitVec.and_self]

/-- Only bits 4:0 of F are stored. -/
theorem setF_high (v : Byte) : (s.setF v).f &&& 0xE0 = 0 := by
  unfold State.setF flagMask
  rw [BitVec.and_assoc]
  exact BitVec.and_zero

theorem setFlag_high (fl : Flag) (b : Bool) : (s.setFlag fl b).f &&& 0xE0 = 0 := setF_high s _

theorem getLsbD_putBit (v : Byte) (n m : Nat) (b : Bool) (hn : n < 8) :
    (putBit v n b).getLsbD m = if m = n then b else v.getLsbD m := by
  unfold putBit
  by_cases hm : m < 8
  · split <;> by_cases h : m = n <;> simp_all
    all_goals omega
  · have : m ≠ n := by omega
    split <;> simp_all

/-- Writing one flag changes that flag and no other. -/
@[simp] theorem flag_setFlag (fl q : Flag) (b : Bool) : (s.setFlag fl b).flag q = if q = fl then b else s.flag q := by
  unfold State.flag State.setFlag
  rw [readF_setF, BitVec.getLsbD_and, getLsbD_putBit _ _ _ _ (by cases fl <;> decide)]
  cases fl <;> cases q <;> simp [Flag.bit, flagMask, State.readF]

@[simp] theorem flag_setZS (r : Byte) (q : Flag) :
    (s.setZS r).flag q = match q with | .z => r == 0 | .s => r.msb | .c => s.flag .c | .v => s.flag .v | .i => s.flag .i := by
  unfold State.setZS
  cases q <;> simp

theorem setZS_high (r : Byte) : (s.setZS r).f &&& 0xE0 = 0 := setFlag_high _ _ _

@[simp] theorem flag_setCZSV (r : AluResult) (q : Flag) :
    (s.setCZSV r).flag q = match q with | .z => r.res == 0 | .s => r.res.msb | .c => r.c | .v => r.v | .i => s.flag .i := by
  unfold State.setCZSV
  cases q <;> simp

theorem setCZSV_high (r : AluResult) : (s.setCZSV r).f &&& 0xE0 = 0 := setFlag_high _ _ _

/-! ## The arithmetic helpers -/

theorem add8_res (a b : Byte) (cin : Bool) : (add8 a b cin).res = BitVec.ofNat 8 (a.toNat + b.toNat + cin.toNat) := rfl

theorem add8_c (a b : Byte) (cin : Bool) : (add8 a b cin).c = decide (255 < a.toNat + b.toNat + cin.toNat) := rfl

theorem sub8_res (a b : Byte) (bin : Bool) :
    (sub8 a b bin).res = BitVec.ofInt 8 ((a.toNat : Int) - b.toNat - bin.toNat) := rfl

theorem sub8_c (a b : Byte) (bin : Bool) : (sub8 a b bin).c = decide (a.toNat < b.toNat + bin.toNat) := by
  unfold sub8
  simp only [decide_eq_decide]
  omega

theorem msb_eq_decide (a : Byte) : a.msb = decide (128 ≤ a.toNat) := by
  rw [BitVec.msb_eq_decide]

theorem beq_zero_eq_decide (a : Byte) : (a == 0) = decide (a.toNat = 0) := by
  rw [Bool.eq_iff_iff]
  simp [BitVec.toNat_eq]

/-- A byte read as a two's-complement number. -/
theorem toInt_cases (a : Byte) : (a.toNat < 128 ∧ a.toInt = a.toNat) ∨ (128 ≤ a.toNat ∧ a.toInt = a.toNat - 256) := by
  have h := BitVec.toInt_eq_toNat_cond a
  split at h <;> [left; right] <;> constructor <;> omega

/-! ## The return stack -/

/-- A pop after a push gives back what was pushed, and the level. -/
@[simp] theorem top_push (v : Word) : (s.push v).top = v := by
  simp [State.top]

@[simp] theorem spl_drop_push (v : Word) : (s.push v).drop.spl = s.spl := by simp

/-- Every other entry keeps its value across a push. -/
theorem stk_push_ne (v : Word) (k : BitVec 3) (h : k ≠ s.spl) :
    (s.push v).stk[k.toNat]'k.isLt = s.stk[k.toNat]'k.isLt := by
  have : s.spl.toNat ≠ k.toNat := fun e => h (BitVec.eq_of_toNat_eq e.symm)
  simp [Vector.getElem_set_ne, this]

/-! ## HALTACK -/

/-- What `halted <- b; drive HALTACK to b` leaves. -/
theorem setHalted_eq (b : Bool) :
    s.setHalted b =
      { s with
        halted := b
        lines := if s.halted = b then s.lines else s.lines.setAll (s.haltackAnswers.headD [])
        haltackAnswers := if s.halted = b then s.haltackAnswers else s.haltackAnswers.tail
        haltackLog := if s.halted = b then s.haltackLog else s.haltackLog ++ [b] } := by
  unfold State.setHalted
  split
  · subst_vars; simp
  · simp [State.haltackCallback]

/-! ## The bus -/

@[simp] theorem memRead_fst (a : Word) : (s.memRead a).1 = s.busByte a := rfl

@[simp] theorem memRead_snd (a : Word) : (s.memRead a).2 = s.access .read a (s.busByte a) := rfl

/-- RAM and ROM answer with what memory holds (20_memory.md R60). -/
theorem busByte_of_memory {a : Word} (h : kindAt s.map a.toNat = some .ram ∨ kindAt s.map a.toNat = some .rom) :
    s.busByte a = s.peek a := by
  unfold State.busByte
  rcases h with h | h <;> rw [h]

@[simp] theorem fetch_fst : s.fetch.1 = s.busByte s.pc := rfl

@[simp] theorem fetch_snd : s.fetch.2 = (s.access .read s.pc (s.busByte s.pc)).setPc (s.pc + 1) := rfl

/-- The three cases of the fetches: one, two or three, by the length of the first byte. -/
theorem fetchInstr_cases :
    (lengthOf s.fetch.1 = 1 ∧ s.fetchInstr = ({ ipc := s.pc, b0 := s.fetch.1, b1 := 0, b2 := 0 }, s.fetch.2)) ∨
    (lengthOf s.fetch.1 = 2 ∧
      s.fetchInstr = ({ ipc := s.pc, b0 := s.fetch.1, b1 := s.fetch.2.fetch.1, b2 := 0 }, s.fetch.2.fetch.2)) ∨
    (lengthOf s.fetch.1 = 3 ∧
      s.fetchInstr =
        ({ ipc := s.pc, b0 := s.fetch.1, b1 := s.fetch.2.fetch.1, b2 := s.fetch.2.fetch.2.fetch.1 },
          s.fetch.2.fetch.2.fetch.2)) := by
  have h : lengthOf s.fetch.1 = 1 ∨ lengthOf s.fetch.1 = 2 ∨ lengthOf s.fetch.1 = 3 := by
    unfold lengthOf
    split <;> [split; skip] <;> simp
  unfold State.fetchInstr
  rcases h with h | h | h
  · exact .inl ⟨h, by simp only [h]; rfl⟩
  · exact .inr (.inl ⟨h, by simp only [h]; rfl⟩)
  · exact .inr (.inr ⟨h, by simp only [h]; rfl⟩)

/-! ## Interrupt entry, reset and the checkpoint: what they leave alone -/

section frames
variable (k : Interrupt)

@[simp] theorem acknowledge_eq :
    s.acknowledge k =
      { s with lines := match k with | .nmi => { s.lines with nmiPending := false } | .irq => s.lines } := by
  cases k <;> rfl

/-- `dispatch` as its last four actions after the two pushes. -/
theorem dispatch_eq_pushes :
    s.dispatch k =
      ((((State.setHalted { (((s.push s.pc).push (s.readF.setWidth 16)).setFlag .i false) with ishadow := false } false).acknowledge
        k).setPc k.vector).spend intCycles) := rfl

@[simp] theorem dispatch_pc : (s.dispatch k).pc = k.vector := rfl

@[simp] theorem dispatch_regs : (s.dispatch k).regs = s.regs := by
  simp [dispatch_eq_pushes, setHalted_eq]

@[simp] theorem dispatch_spl : (s.dispatch k).spl = s.spl + 2 := by
  simp [dispatch_eq_pushes, setHalted_eq, BitVec.add_assoc]

@[simp] theorem dispatch_stk :
    (s.dispatch k).stk = ((s.push s.pc).push (s.readF.setWidth 16)).stk := by
  rw [dispatch_eq_pushes, setHalted_eq, acknowledge_eq]
  rfl

@[simp] theorem dispatch_mem : (s.dispatch k).mem = s.mem := by
  simp [dispatch_eq_pushes, setHalted_eq]

@[simp] theorem dispatch_faulted : (s.dispatch k).faulted = s.faulted := by
  simp [dispatch_eq_pushes, setHalted_eq]

@[simp] theorem dispatch_halted : (s.dispatch k).halted = false := by
  simp [dispatch_eq_pushes, setHalted_eq]

@[simp] theorem dispatch_ishadow : (s.dispatch k).ishadow = false := by
  simp [dispatch_eq_pushes, setHalted_eq]

@[simp] theorem dispatch_icount : (s.dispatch k).icount = s.icount - 6 := by
  simp [dispatch_eq_pushes, setHalted_eq, intCycles]

@[simp] theorem dispatch_busLog : (s.dispatch k).busLog = s.busLog := by
  simp [dispatch_eq_pushes, setHalted_eq]

@[simp] theorem dispatch_diagLog : (s.dispatch k).diagLog = s.diagLog := by
  simp [dispatch_eq_pushes, setHalted_eq]

@[simp] theorem dispatch_cfg : (s.dispatch k).cfg = s.cfg := by
  simp [dispatch_eq_pushes, setHalted_eq]

@[simp] theorem dispatch_map : (s.dispatch k).map = s.map := by
  simp [dispatch_eq_pushes, setHalted_eq]

@[simp] theorem dispatch_script : (s.dispatch k).script = s.script := by
  simp [dispatch_eq_pushes, setHalted_eq]

@[simp] theorem dispatch_busAnswers : (s.dispatch k).busAnswers = s.busAnswers := by
  simp [dispatch_eq_pushes, setHalted_eq]

@[simp] theorem dispatch_waitAcc : (s.dispatch k).waitAcc = s.waitAcc := by
  simp [dispatch_eq_pushes, setHalted_eq]

/-- The flags a dispatch leaves: I cleared, the others kept. -/
theorem dispatch_flag (q : Flag) : (s.dispatch k).flag q = if q = .i then false else s.flag q := by
  have : (s.dispatch k).f = (((s.push s.pc).push (s.readF.setWidth 16)).setFlag .i false).f := by
    rw [dispatch_eq_pushes, setHalted_eq, acknowledge_eq]
    rfl
  have h : (s.dispatch k).flag q = (((s.push s.pc).push (s.readF.setWidth 16)).setFlag .i false).flag q :=
    congrArg (fun f => (f &&& flagMask).getLsbD q.bit) this
  rw [h, flag_setFlag, push_flag, push_flag]

@[simp] theorem performReset_pc : s.performReset.pc = 0 := rfl

@[simp] theorem performReset_regs : s.performReset.regs = { a := 0, b := 0, x := 0, y := 0 } := by
  simp [State.performReset, setHalted_eq]

@[simp] theorem performReset_mem : s.performReset.mem = s.mem := by
  simp [State.performReset, setHalted_eq]

@[simp] theorem performReset_halted : s.performReset.halted = false := by
  simp [State.performReset, setHalted_eq]

@[simp] theorem performReset_faulted : s.performReset.faulted = s.faulted := by
  simp [State.performReset, setHalted_eq]

@[simp] theorem performReset_ishadow : s.performReset.ishadow = false := by
  simp [State.performReset, setHalted_eq]

@[simp] theorem performReset_f : s.performReset.f = 0 := by
  simp [State.performReset, setHalted_eq]

@[simp] theorem performReset_icount : s.performReset.icount = s.icount := by
  simp [State.performReset, setHalted_eq, resetCycles]

@[simp] theorem performReset_busLog : s.performReset.busLog = s.busLog := by
  simp [State.performReset, setHalted_eq]

@[simp] theorem performReset_diagLog : s.performReset.diagLog = s.diagLog := by
  simp [State.performReset, setHalted_eq]

@[simp] theorem performReset_cfg : s.performReset.cfg = s.cfg := by
  simp [State.performReset, setHalted_eq]

@[simp] theorem performReset_map : s.performReset.map = s.map := by
  simp [State.performReset, setHalted_eq]

@[simp] theorem performReset_script : s.performReset.script = s.script := by
  simp [State.performReset, setHalted_eq]

@[simp] theorem performReset_busAnswers : s.performReset.busAnswers = s.busAnswers := by
  simp [State.performReset, setHalted_eq]

@[simp] theorem performReset_waitAcc : s.performReset.waitAcc = s.waitAcc := by
  simp [State.performReset, setHalted_eq]

/-- The checkpoint does one of four things. -/
theorem checkpoint_cases :
    (s.lines.resetPending = true ∧ s.checkpoint = s.performReset) ∨
    (s.lines.resetPending = false ∧ s.lines.nmiPending = true ∧ s.checkpoint = s.dispatch .nmi) ∨
    (s.lines.resetPending = false ∧ s.lines.nmiPending = false ∧ s.irqServiceable = true ∧
      s.checkpoint = s.dispatch .irq) ∨
    (s.lines.resetPending = false ∧ s.lines.nmiPending = false ∧ s.irqServiceable = false ∧ s.checkpoint = s) := by
  unfold State.checkpoint
  cases h1 : s.lines.resetPending <;> cases h2 : s.lines.nmiPending <;> cases h3 : s.irqServiceable <;> simp

end frames

/-! ## The phase before the first reset -/

/-- The two latches of a started core and the value it gives `nmi_pending` play no part in its first reset. -/
theorem Started.deviceReset_latches (t : Started) (nmi : Option Bool) (res : Bool) :
    Started.deviceReset { t with nmiPending := nmi, resetPending := res } = t.deviceReset := rfl

@[simp] theorem Started.setLine_outside (t : Started) (c : LineCall) : (t.setLine c).outside = t.outside := by
  cases c with
  | mk line level => cases line <;> rfl

@[simp] theorem Started.setLine_cfg (t : Started) (c : LineCall) : (t.setLine c).cfg = t.cfg := by
  cases c with
  | mk line level => cases line <;> rfl

/-- `set_line` before the first reset writes the five bits of R243 only. -/
@[simp] theorem Started.setLine_haltack (t : Started) (c : LineCall) : (t.setLine c).haltack = t.haltack := by
  cases c with
  | mk line level => cases line <;> rfl

@[simp] theorem Started.setLine_faulted (t : Started) (c : LineCall) : (t.setLine c).faulted = t.faulted := by
  cases c with
  | mk line level => cases line <;> rfl

@[simp] theorem Started.setLine_diagLog (t : Started) (c : LineCall) : (t.setLine c).diagLog = t.diagLog := by
  cases c with
  | mk line level => cases line <;> rfl

/-! ## The illegal-opcode handler -/

theorem illegalOpcode_nop (ipc : Word) (b0 : Byte) (h : s.cfg.illegalPolicy = .nopContinue) :
    s.illegalOpcode ipc b0 =
      { s with
        ishadow := false
        diagLog := s.diagLog ++ [{ kind := .illegalOpcode, addr := ipc, opcode := b0 }]
        icount := s.icount - 2 - s.waitAcc } := by
  unfold State.illegalOpcode
  rw [h]
  rfl

theorem illegalOpcode_fatal (ipc : Word) (b0 : Byte) (h : s.cfg.illegalPolicy = .fatal) :
    s.illegalOpcode ipc b0 =
      { s with
        pc := ipc
        faulted := true
        diagLog := s.diagLog ++ [{ kind := .illegalOpcode, addr := ipc, opcode := b0 }] } := by
  unfold State.illegalOpcode
  rw [h]
  rfl

/-! ## Operands -/

@[simp] theorem loadReg_eq (r : Reg) (ea : Word) :
    s.loadReg r ea = (s.access .read ea (s.busByte ea)).setReg r (s.busByte ea) := rfl

@[simp] theorem storeReg_eq (r : Reg) (ea : Word) : s.storeReg r ea = s.memWrite ea (s.reg r) := rfl

/-- The indexed address is the sum modulo 2^16. -/
theorem indexedEa_toNat (a16 : Word) : (s.indexedEa a16).toNat = (a16.toNat + (s.reg .x).toNat) % 65536 := by
  unfold State.indexedEa
  rw [BitVec.toNat_add, BitVec.toNat_setWidth_of_le (by decide)]

theorem branch_taken (rel8 : Byte) : s.branch true rel8 = (s.setPc (s.pc + displacement rel8)).charge 3 := rfl

theorem branch_not_taken (rel8 : Byte) : s.branch false rel8 = s.charge 2 := rfl

end Sys2Proof.Machine
end

