-- ==== Sys2Proof/Laws/Exec.lean ====
section
/-! SUPPORT. What the meanings, the Engine and the step can do, said once. -/

namespace Sys2Proof.Machine

/-- Every meaning answers a next state. -/
theorem exec_next (i : Instr) (s : State) : ∃ t, exec i s = .next t := by
  cases i <;> exact ⟨_, rfl⟩

theorem runFetched_next (d : Fetched) (s : State) : ∃ t, runFetched d s = .next t := by
  unfold runFetched
  split
  · exact ⟨_, rfl⟩
  · exact exec_next _ _

theorem iteration_next (s : State) : ∃ t, iteration s = .next t := by
  unfold iteration afterCheckpoint
  split
  · exact ⟨_, rfl⟩
  · exact runFetched_next _ _

/-- The loop's equation: it ends, or it makes one iteration and goes on. -/
theorem runLoop_succ (fuel : Nat) (s : State) :
    (s.icount ≤ 0 ∨ s.faulted = true) ∧ runLoop (fuel + 1) s = .next s ∨
    (0 < s.icount ∧ s.faulted = false) ∧ ∃ t, iteration s = .next t ∧ runLoop (fuel + 1) s = runLoop fuel t := by
  by_cases h : s.icount ≤ 0 ∨ s.faulted = true
  · exact .inl ⟨h, by rw [runLoop, if_pos h]⟩
  · obtain ⟨t, ht⟩ := iteration_next s
    refine .inr ⟨⟨by omega, by simpa using fun e => h (.inr e)⟩, t, ht, ?_⟩
    rw [runLoop, if_neg h, ht]

theorem runLoop_next (fuel : Nat) (s : State) : ∃ t, runLoop fuel s = .next t := by
  induction fuel generalizing s with
  | zero => exact ⟨s, rfl⟩
  | succ n ih =>
    rcases runLoop_succ n s with ⟨_, h⟩ | ⟨_, t, _, h⟩
    · exact ⟨s, h⟩
    · rw [h]; exact ih t

/-- A run that starts: the loop from the loaded budget. -/
theorem executeRun_of_pos {b : Int} {s t : State} (hs : s.faulted = false) (hb : 0 < b)
    (h : runLoop b.toNat { s with icount := b } = .next t) : executeRun b s = .next (b - t.icount, t) := by
  unfold executeRun
  rw [if_neg (by simp [hs]), if_neg (by omega), h]

/-- What a run can answer: nothing done, or the loop's end. -/
theorem executeRun_cases {b n : Int} {s t : State} (h : executeRun b s = .next (n, t)) :
    (s.faulted = true ∧ n = max b 0 ∧ t = s) ∨
    (s.faulted = false ∧ b ≤ 0 ∧ n = 0 ∧ t = s) ∨
    (s.faulted = false ∧ 0 < b ∧ n = b - t.icount ∧ runLoop b.toNat { s with icount := b } = .next t) := by
  unfold executeRun at h
  split at h
  · cases h
    exact .inl ⟨‹_›, rfl, rfl⟩
  · have hs : s.faulted = false := by simpa using ‹¬s.faulted = true›
    split at h
    · cases h
      exact .inr (.inl ⟨hs, ‹_›, rfl, rfl⟩)
    · obtain ⟨u, hu⟩ := runLoop_next b.toNat { s with icount := b }
      rw [hu] at h
      cases h
      exact .inr (.inr ⟨hs, by omega, rfl, hu⟩)

/-- The single step of a core that is not faulted is one iteration with a budget of one cycle. -/
theorem step_single {s : State} (h : s.script = []) (hf : s.faulted = false) :
    step s = iteration { s with icount := 1 } := by
  obtain ⟨t, ht⟩ := iteration_next { s with icount := 1 }
  have hl : runLoop (1 : Int).toNat { s with icount := 1 } = .next t := by
    rw [show (1 : Int).toNat = 1 from rfl, runLoop, if_neg (by simp [hf]), ht]
    rfl
  have hr : step s = afterRun 1 s := by
    unfold step
    split
    · rfl
    · simp_all
  rw [hr, afterRun, executeRun_of_pos hf (by decide) hl, ht]

/-- The single step of a faulted core changes nothing. -/
theorem step_faulted {s : State} (h : s.script = []) (hf : s.faulted = true) : step s = .next s := by
  have hr : step s = afterRun 1 s := by
    unfold step
    split
    · rfl
    · simp_all
  rw [hr, afterRun, executeRun, if_pos hf]

/-- With nothing to serve the checkpoint does nothing. -/
theorem checkpoint_quiet {s : State} (h : s.quiet = true) : s.checkpoint = s := by
  unfold State.quiet at h
  simp only [Bool.and_eq_true, Bool.not_eq_true'] at h
  obtain ⟨⟨h1, h2⟩, h3⟩ := h
  unfold State.checkpoint
  simp [h1, h2, h3]

theorem placeByte_mem_wf {s : State} (h : s.mem.wf = true) (a : Word) (v : Byte) : (s.placeByte a v).mem.wf = true :=
  Memory.wf_write h a.isLt

/-- Placing an instruction keeps memory in canonical form. -/
theorem withFetchWord_mem_wf {s : State} (h : s.mem.wf = true) (nbits w : Nat) :
    (s.withFetchWord nbits w).mem.wf = true :=
  placeByte_mem_wf (placeByte_mem_wf (placeByte_mem_wf h _ _) _ _) _ _

end Sys2Proof.Machine
end

