-- ==== Sys2Proof/Laws/PerInstr.lean ====
section
/-! SUPPORT. Facts about every instruction, proved constructor by constructor. -/

namespace Sys2Proof

/-- No instruction is ill-formed (spec/30_encoding.md R99, R101). -/
theorem Instr.wf_all (i : Instr) : i.wf = true := by
  cases i <;> first
    | rfl
    | exact decide_eq_true (BitVec.isLt _)

/-- The two bits of a register field name it. -/
@[simp] theorem Reg.ofField_field (r : Reg) : Reg.ofField r.field = r := by
  cases r <;> rfl

/-- Every field names one register. -/
@[simp] theorem Reg.field_ofField (v : BitVec 2) : (Reg.ofField v).field = v := by
  revert v
  decide

end Sys2Proof

namespace Sys2Proof.Laws.EncodingLength

/-- The number of bytes an instruction is written in is the length its first byte announces (R92), and it is what
opcode_table.json gives as `length_bytes`. -/
def Statement (i : Instr) : Prop := ∀ b0 rest, encode i = b0 :: rest → (encode i).length = lengthOf b0

theorem nop : Statement .nop := by
  rintro b0 rest ⟨⟩
  rfl

theorem hlt : Statement .hlt := by
  rintro b0 rest ⟨⟩
  rfl

theorem ret : Statement .ret := by
  rintro b0 rest ⟨⟩
  rfl

theorem reti : Statement .reti := by
  rintro b0 rest ⟨⟩
  rfl

theorem ei : Statement .ei := by
  rintro b0 rest ⟨⟩
  rfl

theorem di : Statement .di := by
  rintro b0 rest ⟨⟩
  rfl

theorem clc : Statement .clc := by
  rintro b0 rest ⟨⟩
  rfl

theorem sec : Statement .sec := by
  rintro b0 rest ⟨⟩
  rfl

theorem movAR (r : Reg) : Statement (.movAR r) := by
  rintro b0 rest ⟨⟩
  cases r <;> rfl

theorem movRA (r : Reg) : Statement (.movRA r) := by
  rintro b0 rest ⟨⟩
  cases r <;> rfl

theorem addR (r : Reg) : Statement (.addR r) := by
  rintro b0 rest ⟨⟩
  cases r <;> rfl

theorem adcR (r : Reg) : Statement (.adcR r) := by
  rintro b0 rest ⟨⟩
  cases r <;> rfl

theorem subR (r : Reg) : Statement (.subR r) := by
  rintro b0 rest ⟨⟩
  cases r <;> rfl

theorem sbcR (r : Reg) : Statement (.sbcR r) := by
  rintro b0 rest ⟨⟩
  cases r <;> rfl

theorem andR (r : Reg) : Statement (.andR r) := by
  rintro b0 rest ⟨⟩
  cases r <;> rfl

theorem orR (r : Reg) : Statement (.orR r) := by
  rintro b0 rest ⟨⟩
  cases r <;> rfl

theorem xorR (r : Reg) : Statement (.xorR r) := by
  rintro b0 rest ⟨⟩
  cases r <;> rfl

theorem cmpR (r : Reg) : Statement (.cmpR r) := by
  rintro b0 rest ⟨⟩
  cases r <;> rfl

theorem adnR (r : Reg) : Statement (.adnR r) := by
  rintro b0 rest ⟨⟩
  cases r <;> rfl

theorem inc (r : Reg) : Statement (.inc r) := by
  rintro b0 rest ⟨⟩
  cases r <;> rfl

theorem dec (r : Reg) : Statement (.dec r) := by
  rintro b0 rest ⟨⟩
  cases r <;> rfl

theorem shl : Statement .shl := by
  rintro b0 rest ⟨⟩
  rfl

theorem shr : Statement .shr := by
  rintro b0 rest ⟨⟩
  rfl

theorem rol : Statement .rol := by
  rintro b0 rest ⟨⟩
  rfl

theorem ror : Statement .ror := by
  rintro b0 rest ⟨⟩
  rfl

theorem tfa : Statement .tfa := by
  rintro b0 rest ⟨⟩
  rfl

theorem taf : Statement .taf := by
  rintro b0 rest ⟨⟩
  rfl

theorem ldi (r : Reg) (imm8 : Byte) : Statement (.ldi r imm8) := by
  rintro b0 rest ⟨⟩
  cases r <;> rfl

theorem addI (imm8 : Byte) : Statement (.addI imm8) := by
  rintro b0 rest ⟨⟩
  rfl

theorem adcI (imm8 : Byte) : Statement (.adcI imm8) := by
  rintro b0 rest ⟨⟩
  rfl

theorem subI (imm8 : Byte) : Statement (.subI imm8) := by
  rintro b0 rest ⟨⟩
  rfl

theorem sbcI (imm8 : Byte) : Statement (.sbcI imm8) := by
  rintro b0 rest ⟨⟩
  rfl

theorem andI (imm8 : Byte) : Statement (.andI imm8) := by
  rintro b0 rest ⟨⟩
  rfl

theorem orI (imm8 : Byte) : Statement (.orI imm8) := by
  rintro b0 rest ⟨⟩
  rfl

theorem xorI (imm8 : Byte) : Statement (.xorI imm8) := by
  rintro b0 rest ⟨⟩
  rfl

theorem cmpI (imm8 : Byte) : Statement (.cmpI imm8) := by
  rintro b0 rest ⟨⟩
  rfl

theorem adnI (imm8 : Byte) : Statement (.adnI imm8) := by
  rintro b0 rest ⟨⟩
  rfl

theorem bra (rel8 : Byte) : Statement (.bra rel8) := by
  rintro b0 rest ⟨⟩
  rfl

theorem beq (rel8 : Byte) : Statement (.beq rel8) := by
  rintro b0 rest ⟨⟩
  rfl

theorem bne (rel8 : Byte) : Statement (.bne rel8) := by
  rintro b0 rest ⟨⟩
  rfl

theorem bcs (rel8 : Byte) : Statement (.bcs rel8) := by
  rintro b0 rest ⟨⟩
  rfl

theorem bcc (rel8 : Byte) : Statement (.bcc rel8) := by
  rintro b0 rest ⟨⟩
  rfl

theorem bmi (rel8 : Byte) : Statement (.bmi rel8) := by
  rintro b0 rest ⟨⟩
  rfl

theorem bpl (rel8 : Byte) : Statement (.bpl rel8) := by
  rintro b0 rest ⟨⟩
  rfl

theorem bvs (rel8 : Byte) : Statement (.bvs rel8) := by
  rintro b0 rest ⟨⟩
  rfl

theorem bvc (rel8 : Byte) : Statement (.bvc rel8) := by
  rintro b0 rest ⟨⟩
  rfl

theorem ld (r : Reg) (a16 : Word) : Statement (.ld r a16) := by
  rintro b0 rest ⟨⟩
  cases r <;> rfl

theorem st (r : Reg) (a16 : Word) : Statement (.st r a16) := by
  rintro b0 rest ⟨⟩
  cases r <;> rfl

theorem ldX (r : Reg) (a16 : Word) : Statement (.ldX r a16) := by
  rintro b0 rest ⟨⟩
  cases r <;> rfl

theorem stX (r : Reg) (a16 : Word) : Statement (.stX r a16) := by
  rintro b0 rest ⟨⟩
  cases r <;> rfl

theorem jmp (a16 : Word) : Statement (.jmp a16) := by
  rintro b0 rest ⟨⟩
  rfl

theorem call (a16 : Word) : Statement (.call a16) := by
  rintro b0 rest ⟨⟩
  rfl

end Sys2Proof.Laws.EncodingLength
end

