-- ==== Sys2Proof/Tests/Slice0.lean ====
section
/-! SUPPORT. Checks of our own work: the boundary's refusals, the words of the encoding tables written out by hand, one step
each against the vectors of spec/95_test_vectors.md, and the witnesses of the obligations' hypotheses. -/

namespace Sys2Proof.Tests

open Sys2Proof Sys2Proof.Machine

/-! ## Helpers -/

/-- Memory with some bytes at an address. -/
def fill : Memory → Nat → List Byte → Memory
  | m, _, [] => m
  | m, a, v :: rest => fill (m.write a v) (a + 1) rest

/-- After reset, with PC 0200, the given bytes there, the given registers and F. -/
def at0200 (bytes : List Byte) (g : Regs) (f : Byte) : State :=
  { State.reset with pc := 0x0200, mem := fill [] 0x0200 bytes, regs := g, f := f }

/-- All registers 0. -/
def zeros : Regs := { a := 0, b := 0, x := 0, y := 0 }

/-- A and B given. -/
def ab (a b : Byte) : Regs := { a := a, b := b, x := 0, y := 0 }

/-- After reset with a map of one row of each kind: RAM below 8000, ROM at 8000, a device at A000, nothing above A0FF. -/
def mapped : State :=
  { State.reset with
    map :=
      [{ base := 0, size := 0x8000, kind := .ram }, { base := 0x8000, size := 0x2000, kind := .rom },
        { base := 0xA000, size := 0x100, kind := .device }]
    mem := fill [] 0x7FFF [0x5A, 0xA5] }

/-- The surroundings of `mapped`, with a HALTACK callback that asserts NMI when it is first called. -/
def attached : Surroundings :=
  { map := mapped.map
    mem := mapped.mem
    busAnswers := []
    haltackAnswers := [[{ line := .nmi, level := .asserted }]]
    script := [] }

/-- The step answers a next state of which `p` holds. -/
def seen (o : Host.Outcome State Fault Refusal) (p : State → Bool) : Bool :=
  match o with
  | .next t => p t
  | .fault _ => false
  | .refused _ => false

/-- A, F and the cycles that the single step charged. -/
def alu (bytes : List Byte) (g : Regs) (f : Byte) : Option (Byte × Byte × Int) :=
  match step (at0200 bytes g f) with
  | .next t => some (t.regs.a, t.f, 1 - t.icount)
  | .fault _ => none
  | .refused _ => none

/-! ## What the boundary refuses -/

theorem test_addressWidth_refused : configError 15 State.reset.map = some (.addressWidth 15) := by decide

theorem test_emptyRegion_refused :
    configError 16 [{ base := 0, size := 0, kind := .ram }] = some (.badRegion { base := 0, size := 0, kind := .ram }) := by
  decide

theorem test_regionPastTop_refused :
    configError 16 [{ base := 0xFFFF, size := 2, kind := .rom }] =
      some (.badRegion { base := 0xFFFF, size := 2, kind := .rom }) := by
  decide

theorem test_wholeSpace_accepted : configError 16 State.reset.map = none := by decide

theorem test_lineId_refused : lineOfId 3 = none := by decide

theorem test_stateIndex_refused : keyOfIndex 7 = none ∧ keyOfIndex 19 = none := by decide

theorem test_keys_table :
    keyName (.stk 7) = "STK7" ∧ keyIndex (.stk 7) = 15 ∧ keyCanonical (.stk 7) = true ∧ keyCanonical .nmip = false := by decide

/-- What `set_line` leaves before the first reset, and what that reset makes of it (10_state.md R56, R57). -/
def startedWith (c : LineCall) : Option (Option Bool × LineState × Bool) :=
  match deviceStart 16 State.reset.cfg attached with
  | .ok t => some ((t.setLine c).nmiPending, (t.setLine c).deviceReset.lines, (t.setLine c).deviceReset.haltackLog.isEmpty)
  | .error _ => none

theorem test_start_nmi_edge :
    startedWith { line := .nmi, level := .asserted } =
      some (some true, { LineState.cleared with nmiLevel := .asserted }, true) := by decide

theorem test_start_irq :
    startedWith { line := .irq, level := .asserted } = some (none, { LineState.cleared with irqLevel := .asserted }, true) := by
  decide

theorem test_memory_unsorted_refused : Memory.wf [(5, 1), (4, 1)] = false := by decide

theorem test_memory_repeat_refused : Memory.wf [(5, 1), (5, 2)] = false := by decide

theorem test_memory_zero_refused : Memory.wf [(5, 0)] = false := by decide

theorem test_memory_pastTop_refused : Memory.wf [(65536, 1)] = false := by decide

/-! ## Decoding: every row of 30_encoding.md R100, its bits written out -/

theorem test_decode_inh_low :
    decode [0b00000000] = .instr .nop [] ∧ decode [0b00000001] = .instr .hlt [] ∧ decode [0b00000010] = .instr .ret [] ∧
    decode [0b00000011] = .instr .reti [] ∧ decode [0b00000100] = .instr .ei [] ∧ decode [0b00000101] = .instr .di [] ∧
    decode [0b00000110] = .instr .clc [] ∧ decode [0b00000111] = .instr .sec [] := by decide

theorem test_decode_inh_high :
    decode [0b00111100] = .instr .shl [] ∧ decode [0b00111101] = .instr .shr [] ∧ decode [0b00111110] = .instr .rol [] ∧
    decode [0b00111111] = .instr .ror [] ∧ decode [0b01000000] = .instr .tfa [] ∧ decode [0b01000001] = .instr .taf [] := by
  decide

theorem test_decode_mov :
    decode [0b00001000] = .instr (.movAR .a) [] ∧ decode [0b00001010] = .instr (.movAR .x) [] ∧
    decode [0b00001101] = .instr (.movRA .b) [] ∧ decode [0b00001111] = .instr (.movRA .y) [] := by decide

theorem test_decode_add_sub_r :
    decode [0b00010001] = .instr (.addR .b) [] ∧ decode [0b00010110] = .instr (.adcR .x) [] ∧
    decode [0b00011011] = .instr (.subR .y) [] ∧ decode [0b00011100] = .instr (.sbcR .a) [] := by decide

theorem test_decode_logic_r :
    decode [0b00100001] = .instr (.andR .b) [] ∧ decode [0b00100110] = .instr (.orR .x) [] ∧
    decode [0b00101011] = .instr (.xorR .y) [] ∧ decode [0b00101101] = .instr (.cmpR .b) [] := by decide

theorem test_decode_adn_inc_dec :
    decode [0b00110001] = .instr (.adnR .b) [] ∧ decode [0b00110110] = .instr (.inc .x) [] ∧
    decode [0b00111011] = .instr (.dec .y) [] := by decide

theorem test_decode_immediate :
    decode [0b10000010, 0x7E] = .instr (.ldi .x 0x7E) [] ∧ decode [0b10000100, 1] = .instr (.addI 1) [] ∧
    decode [0b10000101, 2] = .instr (.adcI 2) [] ∧ decode [0b10000110, 3] = .instr (.subI 3) [] ∧
    decode [0b10000111, 4] = .instr (.sbcI 4) [] ∧ decode [0b10001000, 5] = .instr (.andI 5) [] ∧
    decode [0b10001001, 6] = .instr (.orI 6) [] ∧ decode [0b10001010, 7] = .instr (.xorI 7) [] ∧
    decode [0b10001011, 8] = .instr (.cmpI 8) [] ∧ decode [0b10001100, 9] = .instr (.adnI 9) [] := by decide

theorem test_decode_branches :
    decode [0b10010000, 0x80] = .instr (.bra 0x80) [] ∧ decode [0b10010001, 1] = .instr (.beq 1) [] ∧
    decode [0b10010010, 2] = .instr (.bne 2) [] ∧ decode [0b10010011, 3] = .instr (.bcs 3) [] ∧
    decode [0b10010100, 4] = .instr (.bcc 4) [] ∧ decode [0b10010101, 5] = .instr (.bmi 5) [] ∧
    decode [0b10010110, 6] = .instr (.bpl 6) [] ∧ decode [0b10010111, 7] = .instr (.bvs 7) [] ∧
    decode [0b10011000, 0xFF] = .instr (.bvc 0xFF) [] := by decide

/-- The low byte of `a16` comes first (R98). -/
theorem test_decode_absolute :
    decode [0b11000001, 0x34, 0x12] = .instr (.ld .b 0x1234) [] ∧
    decode [0b11000110, 0x34, 0x12] = .instr (.st .x 0x1234) [] ∧
    decode [0b11001011, 0xF0, 0xFF] = .instr (.ldX .y 0xFFF0) [] ∧
    decode [0b11001100, 0x00, 0x01] = .instr (.stX .a 0x0100) [] ∧
    decode [0b11010000, 0xCD, 0xAB] = .instr (.jmp 0xABCD) [] ∧
    decode [0b11010001, 0x00, 0x30, 0x77] = .instr (.call 0x3000) [0x77] := by decide

theorem test_decode_illegal :
    decode [0x42] = .illegalOpcode 0x42 ∧ decode [0x8D, 0x55] = .illegalOpcode 0x8D ∧
    decode [0xFF, 0x34, 0x12] = .illegalOpcode 0xFF ∧ decode [0xFF, 0x34] = .truncated := by decide

/-! ## One step each, against 95_test_vectors.md -/

/-- Section 2. -/
theorem test_mov_tfa_taf :
    alu [0x0A] { a := 0x01, b := 0, x := 0x99, y := 0 } 0x1F = some (0x99, 0x1F, 1) ∧
    alu [0x80, 0x80] zeros 0x02 = some (0x80, 0x02, 2) ∧
    alu [0x40] (ab 0xFF 0) 0x15 = some (0x15, 0x15, 1) ∧
    alu [0x41] (ab 0xFF 0) 0x00 = some (0xFF, 0x1F, 1) := by decide

theorem test_movRA : seen (step (at0200 [0x0F] (ab 0x42 0) 0x00)) (fun t => t.regs.y == 0x42 && t.regs.a == 0x42) := by
  decide

/-- Section 2: the second byte wraps to 0000. -/
theorem test_fetch_wraps :
    seen (step { State.reset with pc := 0xFFFF, mem := [(0x0000, 0x5A), (0xFFFF, 0x80)] })
      (fun t => t.regs.a == 0x5A && t.pc == 0x0001) := by decide

/-- Section 3. -/
theorem test_add :
    alu [0x11] (ab 0x7F 0x01) 0x00 = some (0x80, 0x0C, 1) ∧ alu [0x11] (ab 0x80 0x80) 0x00 = some (0x00, 0x0B, 1) ∧
    alu [0x10] (ab 0x81 0) 0x00 = some (0x02, 0x09, 1) ∧ alu [0x84, 0x01] (ab 0xFF 0) 0x00 = some (0x00, 0x03, 2) := by
  decide

theorem test_adc :
    alu [0x15] (ab 0xFF 0xFF) 0x01 = some (0xFF, 0x05, 1) ∧ alu [0x85, 0x00] zeros 0x01 = some (0x01, 0x00, 2) := by decide

theorem test_sub :
    alu [0x19] (ab 0x7F 0xFF) 0x00 = some (0x80, 0x0D, 1) ∧ alu [0x86, 0x01] zeros 0x00 = some (0xFF, 0x05, 2) := by decide

theorem test_sbc :
    alu [0x1D] (ab 0x10 0x0F) 0x01 = some (0x00, 0x02, 1) ∧ alu [0x87, 0x00] zeros 0x01 = some (0xFF, 0x05, 2) := by decide

theorem test_cmp :
    alu [0x2D] (ab 0x10 0x20) 0x00 = some (0x10, 0x05, 1) ∧ alu [0x8B, 0x0A] (ab 0x0A 0) 0x10 = some (0x0A, 0x12, 2) := by
  decide

theorem test_adn :
    alu [0x31] (ab 0x0F 0x01) 0x1F = some (0x10, 0x1D, 1) ∧ alu [0x31] (ab 0xF0 0x10) 0x00 = some (0x00, 0x02, 1) ∧
    alu [0x8C, 0x07] (ab 0x09 0) 0x00 = some (0x10, 0x01, 2) := by decide

theorem test_inc_dec :
    alu [0x34] (ab 0xFF 0) 0x09 = some (0x00, 0x0B, 1) ∧ alu [0x38] (ab 0x80 0) 0x08 = some (0x7F, 0x08, 1) := by decide

/-- Section 4. -/
theorem test_logic :
    alu [0x21] (ab 0xF0 0x0F) 0x09 = some (0x00, 0x0B, 1) ∧ alu [0x89, 0x81] (ab 0x02 0) 0x02 = some (0x83, 0x04, 2) ∧
    alu [0x8A, 0xFF] (ab 0x0F 0) 0x01 = some (0xF0, 0x05, 2) ∧ alu [0x28] (ab 0x5A 0) 0x0D = some (0x00, 0x0B, 1) := by
  decide

theorem test_shift :
    alu [0x3C] (ab 0x81 0) 0x08 = some (0x02, 0x09, 1) ∧ alu [0x3D] (ab 0x80 0) 0x05 = some (0x40, 0x00, 1) ∧
    alu [0x3E] (ab 0x80 0) 0x01 = some (0x01, 0x01, 1) ∧ alu [0x3F] (ab 0x02 0) 0x19 = some (0x81, 0x1C, 1) := by decide

theorem test_clc_sec : alu [0x06] zeros 0x1F = some (0, 0x1E, 1) ∧ alu [0x07] zeros 0x00 = some (0, 0x01, 1) := by decide

/-- Section 5: the indexed address wraps, and the accesses come in order. -/
theorem test_ldX :
    seen (step
      { at0200 [0xCB, 0xF0, 0xFF] { a := 0, b := 0, x := 0x20, y := 0 } 0 with
        mem := fill [(0x0010, 0x77)] 0x0200 [0xCB, 0xF0, 0xFF] })
      (fun t => t.regs.y == 0x77 && t.busLog.map BusAccess.addr == [0x0200, 0x0201, 0x0202, 0x0010] && t.icount == 1 - 5) := by
  decide

theorem test_stX :
    seen (step (at0200 [0xCE, 0x00, 0x01] { a := 0, b := 0, x := 0xFF, y := 0 } 0))
      (fun t => t.peek 0x01FF == 0xFF && t.mem.wf && t.busLog.getLast? == some ⟨.write, 0x01FF, 0xFF, 0⟩) := by decide

/-- Section 5: a read of an unmapped address gives `OPEN_BUS_FILL`. -/
theorem test_openBus :
    seen (step
      { at0200 [0xC0, 0x00, 0x40] zeros 0 with
        map := [{ base := 0, size := 0x4000, kind := .ram }]
        cfg := { illegalPolicy := .nopContinue, openBusFill := 0xA7 } })
      (fun t => t.regs.a == 0xA7) := by decide

/-- Section 5: adjustment 2 on every access of `LD A,[1234]` makes 12 cycles. -/
theorem test_waitStates :
    seen (step
      { at0200 [0xC0, 0x34, 0x12] zeros 0 with busAnswers := List.replicate 4 { wait := 2, deviceByte := 0, lines := [] } })
      (fun t => t.icount == 1 - 12) := by decide

/-- Section 6: taken upward past the top, not taken. -/
theorem test_branch :
    seen (step { State.reset with pc := 0xFFF8, mem := fill [] 0xFFF8 [0x90, 0x10] })
      (fun t => t.pc == 0x000A && t.icount == 1 - 3) ∧
    seen (step (at0200 [0x95, 0x05] zeros 0x0B)) (fun t => t.pc == 0x0202 && t.icount == 1 - 2) := by decide

theorem test_call :
    seen (step { State.reset with pc := 0xFFFD, mem := fill [] 0xFFFD [0xD1, 0x00, 0x30] })
      (fun t => t.pc == 0x3000 && t.stk[0] == 0x0000 && t.spl == 1 && t.icount == 1 - 5) := by decide

theorem test_ret_underflow :
    seen (step { at0200 [0x02] zeros 0 with stk := #v[0, 0, 0, 0, 0, 0, 0, 0xBEEF] })
      (fun t => t.pc == 0xBEEF && t.spl == 7 && t.icount == 1 - 3) := by decide

theorem test_reti :
    seen (step { at0200 [0x03] zeros 0 with spl := 2, stk := #v[0x1234, 0xFF15, 0, 0, 0, 0, 0, 0] })
      (fun t => t.pc == 0x1234 && t.f == 0x15 && t.spl == 0 && t.icount == 1 - 4) := by decide

/-- Section 7. -/
theorem test_hlt :
    seen (step (at0200 [0x01] zeros 0x00)) (fun t => t.pc == 0x0201 && t.halted && t.haltackLog == [true]) := by decide

theorem test_ei_di :
    seen (step (at0200 [0x04] zeros 0x00)) (fun t => t.f == 0x10 && t.ishadow) ∧
    seen (step (at0200 [0x05] zeros 0x1F)) (fun t => t.f == 0x0F && !t.ishadow) := by decide

theorem test_illegal_nopContinue :
    seen (step (at0200 [0x8D, 0x55] zeros 0))
      (fun t => t.pc == 0x0202 && t.diagLog == [⟨.illegalOpcode, 0x0200, 0x8D⟩] && t.busLog.length == 2 && t.icount == 1 - 2) := by
  decide

theorem test_illegal_fatal :
    seen (step
      { at0200 [0xFF, 0x00, 0x01] zeros 0 with cfg := { illegalPolicy := .fatal, openBusFill := 0 } })
      (fun t =>
        t.pc == 0x0200 && t.faulted && t.diagLog == [⟨.illegalOpcode, 0x0200, 0xFF⟩] && t.busLog.length == 3 && t.icount == 1) := by
  decide

/-- Section 9, call 3 of the shadow vector: IRQ is dispatched and `INC B` at 0010 runs, 7 cycles. -/
theorem test_irq :
    seen (step
      ({ State.reset with pc := 0x0002, f := 0x10, mem := fill [] 0x0010 [0x35] }.setLine { line := .irq, level := .asserted }))
      (fun t =>
        t.pc == 0x0011 && t.regs.b == 1 && t.f == 0 && t.spl == 2 && t.stk[0] == 0x0002 && t.stk[1] == 0x0010 &&
          t.icount == 1 - 7) := by decide

/-- Section 10, P3 step 10: RESET outranks NMI and discards it, and memory stays. -/
theorem test_reset_line :
    seen (step
      (({ State.reset with pc := 0x0102, f := 0x10, halted := true, regs := ab 2 2, mem := fill [] 0x9000 [2] }.setLine
        { line := .reset, level := .asserted }).setLine { line := .nmi, level := .asserted }))
      (fun t =>
        t.pc == 0x0001 && t.regs == zeros && !t.lines.nmiPending && t.lines.nmiLevel == .asserted && !t.halted &&
          t.haltackLog == [false] && t.peek 0x9000 == 2 && t.icount == 1 - 1) := by decide

/-! ## The host's two questions, on one word -/

theorem test_withFetchWord :
    decodeTableWord 24 0x1234C5 = some (.st .b 0x1234) ∧
    seen (step (State.reset.withFetchWord 16 0x5A81)) (fun t => t.regs.b == 0x5A && t.pc == 2) := by decide

/-! ## Witnesses: states and operands that meet the hypotheses of the obligations -/

/-- The map of `mapped` at the edges of its rows. -/
theorem witness_mapped :
    kindAt mapped.map 0x7FFF = some .ram ∧ kindAt mapped.map 0x8000 = some .rom ∧ kindAt mapped.map 0x9FFF = some .rom ∧
    kindAt mapped.map 0xA000 = some .device ∧ kindAt mapped.map 0xA0FF = some .device ∧ kindAt mapped.map 0xA100 = none := by
  decide

theorem witness_EncodeOfDecode : decode [0xC5, 0x34, 0x12, 0x01] = .instr (.st .b 0x1234) [0x01] := by decide

/-- The edges of the four illegal ranges, and the legal bytes beside them. -/
theorem witness_IllegalFirstBytes :
    (∀ b ∈ ([0x42, 0x7F, 0x8D, 0x8F, 0x99, 0xBF, 0xD2, 0xFF] : List Byte), lookup b 0 0 = none) ∧
    (∀ b ∈ ([0x41, 0x80, 0x8C, 0x90, 0x98, 0xC0, 0xD1] : List Byte), lookup b 0 0 ≠ none) := by decide

theorem witness_LengthFromTopTwoBits : (0x80 : Byte).extractLsb' 6 2 = (0xBF : Byte).extractLsb' 6 2 := by decide

theorem witness_FetchReadsExactlyLength :
    lengthOf (at0200 [0x11] zeros 0).fetchInstr.1.b0 = 1 ∧ lengthOf (at0200 [0x84, 1] zeros 0).fetchInstr.1.b0 = 2 ∧
    lengthOf (at0200 [0xD0, 1, 2] zeros 0).fetchInstr.1.b0 = 3 := by decide

theorem witness_FetchFromMemory :
    let s : State := { State.reset with pc := 0xFFFE }
    s.backed s.pc ∧ s.backed (s.pc + 1) ∧ s.backed (s.pc + 2) := by decide

theorem witness_StepRunsDecodedInstruction :
    let s := at0200 [0xC5, 0x34, 0x12] zeros 0
    let d := s.atFetch.fetchInstr.1
    s.running ∧ decode [d.b0, d.b1, d.b2] = .instr (.st .b 0x1234) [] := by decide

theorem witness_StepRunsInstructionFromMemory :
    let s := at0200 [0x84, 0x05] zeros 0
    s.running ∧ s.busAnswers = [] ∧
      ∀ k : Nat, k < (encode (.addI 0x05)).length →
        s.backed (s.pc + BitVec.ofNat 16 k) ∧ (encode (.addI 0x05))[k]? = some (s.peek (s.pc + BitVec.ofNat 16 k)) := by decide

theorem witness_StepHandlesIllegalOpcode_nopContinue :
    let s := at0200 [0xD2, 0, 0] zeros 0
    let d := s.atFetch.fetchInstr.1
    s.running ∧ decode [d.b0, d.b1, d.b2] = .illegalOpcode 0xD2 ∧ s.cfg.illegalPolicy = .nopContinue := by decide

theorem witness_StepHandlesIllegalOpcode_fatal :
    let s : State := { at0200 [0x42] zeros 0 with cfg := { illegalPolicy := .fatal, openBusFill := 0 } }
    let d := s.atFetch.fetchInstr.1
    s.running ∧ decode [d.b0, d.b1, d.b2] = .illegalOpcode 0x42 ∧ s.cfg.illegalPolicy = .fatal := by decide

/-- RESET, then NMI, then IRQ requested, alone. -/
def requested (c : LineCall) : State := { State.reset with f := 0x10 }.setLine c

theorem witness_CheckpointPriority_reset :
    (requested { line := .reset, level := .asserted }).lines.resetPending = true := by decide

theorem witness_CheckpointPriority_nmi :
    let s := requested { line := .nmi, level := .asserted }
    s.lines.resetPending = false ∧ s.lines.nmiPending = true := by decide

theorem witness_CheckpointPriority_irq :
    let s := requested { line := .irq, level := .asserted }
    s.lines.resetPending = false ∧ s.lines.nmiPending = false ∧ s.lines.irqLevel = .asserted ∧ s.flag .i = true ∧
      s.ishadow = false := by decide

theorem witness_CheckpointPriority_none :
    let s : State := { requested { line := .irq, level := .asserted } with ishadow := true }
    s.lines.resetPending = false ∧ s.lines.nmiPending = false ∧
      (s.lines.irqLevel = .cleared ∨ s.flag .i = false ∨ s.ishadow = true) := by decide

theorem witness_StepServesRequestFirst :
    (∀ c ∈ ([⟨.reset, .asserted⟩, ⟨.nmi, .asserted⟩, ⟨.irq, .asserted⟩] : List LineCall),
      (requested c).script = [] ∧ (requested c).faulted = false) ∧
    (requested { line := .irq, level := .asserted }).irqServiceable = true := by decide

theorem witness_ReturnUndoesDispatch :
    let s : State := { State.reset with pc := 0x0102, f := 0x15, spl := 7 }
    let u := s.dispatch .nmi
    u.spl = (s.dispatch .nmi).spl ∧
      ∀ j : BitVec 3, j = s.spl ∨ j = s.spl + 1 →
        u.stk[j.toNat]'j.isLt = (s.dispatch .nmi).stk[j.toNat]'j.isLt :=
  ⟨rfl, fun _ _ => rfl⟩

theorem witness_ResetValues :
    ({ State.reset with halted := true, pc := 0x0102 } : State).haltackAnswers = [] ∧ State.reset.haltackAnswers = [] := by
  decide

theorem witness_StartThenReset :
    (16 = 16 ∧ attached.map.all Region.wf = true) ∧ ¬(15 = 16 ∧ attached.map.all Region.wf = true) ∧
    ¬(16 = 16 ∧ [({ base := 0xFFFF, size := 2, kind := .ram } : Region)].all Region.wf = true) := by decide

theorem witness_StepAlwaysCompletes :
    State.reset.script = [] ∧
      ∃ q rest, ({ State.reset with script := [{ ops := [.deviceReset], budget := 5 }] } : State).script = q :: rest :=
  ⟨rfl, _, _, rfl⟩

theorem witness_StepKeepsInvariant : (at0200 [0x01] zeros 0).Inv ∧ ∃ t, step (at0200 [0x01] zeros 0) = .next t :=
  ⟨⟨by decide, by decide, by decide⟩, _, rfl⟩

theorem witness_RecordsOnlyGrow : ∃ t, step (at0200 [0x42] zeros 0) = .next t := ⟨_, rfl⟩

theorem witness_FaultedCoreStaysDead :
    (∃ t, step { State.reset with faulted := true } = .next t) ∧
    ∃ t, step { State.reset with faulted := true, script := [{ ops := [.deviceReset], budget := 50 }] } = .next t :=
  ⟨⟨_, rfl⟩, _, rfl⟩

theorem witness_FlagsWrittenAsListed :
    writesFlag (.adnI 7) .s = false ∧ ∃ t, exec (.adnI 7) State.reset = .next t := ⟨rfl, _, rfl⟩

theorem witness_RegistersWrittenAsListed :
    writesReg (.addR .b) ≠ some .b ∧ ∃ t, exec (.addR .b) State.reset = .next t := ⟨by decide, _, rfl⟩

theorem witness_OnlyStoresWriteMemory :
    (∃ t, exec (.ld .a 0x1234) State.reset = .next t) ∧ (∀ r a, Instr.ld .a 0x1234 ≠ .st r a) ∧
      ∀ r a, Instr.ld .a 0x1234 ≠ .stX r a :=
  ⟨⟨_, rfl⟩, (fun _ _ h => nomatch h), (fun _ _ h => nomatch h)⟩

theorem witness_StackUsers :
    (∃ t, exec (.call 0x3000) State.reset = .next t) ∧ (∃ t, exec .ret State.reset = .next t) ∧
    (∃ t, exec .reti State.reset = .next t) ∧ (∃ t, exec .nop State.reset = .next t) :=
  ⟨⟨_, rfl⟩, ⟨_, rfl⟩, ⟨_, rfl⟩, _, rfl⟩

theorem witness_InstructionsLeaveSystemState :
    Instr.nop ≠ .ei ∧ Instr.nop ≠ .hlt ∧ transfersControl .nop = false ∧ dataAccesses State.reset .nop = [] ∧
      ∃ t, exec .nop State.reset = .next t := ⟨by decide, by decide, rfl, rfl, _, rfl⟩

theorem witness_ShadowLastsOneInstruction_exec :
    (∃ t, exec .ei { State.reset with ishadow := false } = .next t) ∧
      ∃ t, exec .taf { State.reset with ishadow := false } = .next t := ⟨⟨_, rfl⟩, _, rfl⟩

theorem witness_ShadowLastsOneInstruction_checkpoint :
    let s : State := { requested { line := .irq, level := .asserted } with ishadow := true }
    s.ishadow = true ∧ s.lines.resetPending = false ∧ s.lines.nmiPending = false := by decide

theorem witness_CyclesCharged : ∃ t, exec (.stX .y 0xFFFF) State.reset = .next t := ⟨_, rfl⟩

theorem witness_DataAccessesAsListed : ∃ t, exec (.ldX .y 0xFFFF) State.reset = .next t := ⟨_, rfl⟩

theorem witness_TimingDoesNotAffectResults : ∃ t, iteration { at0200 [0xC0, 0x34, 0x12] zeros 0 with icount := 9 } = .next t :=
  ⟨_, rfl⟩

/-- A run of two cycles whose first instruction costs 5. -/
theorem witness_RunConsumesBudget :
    (0 : Int) < 2 ∧ ∃ t, executeRun 2 (at0200 [0xD1, 0x00, 0x30] zeros 0) = .next (5, t) ∧ t.faulted = false :=
  ⟨by decide, _, rfl, rfl⟩

theorem witness_RunOverrunBounded : (0 : Int) < 1 ∧ ∃ n t, executeRun 1 (requested ⟨.nmi, .asserted⟩) = .next (n, t) :=
  ⟨by decide, _, _, rfl⟩

theorem witness_RunAccountsEveryCycle :
    (0 : Int) < 3 ∧ (at0200 [0x01] zeros 0).faulted = false ∧ ∃ n t, executeRun 3 (at0200 [0x01] zeros 0) = .next (n, t) :=
  ⟨by decide, rfl, _, _, rfl⟩

theorem witness_RunEqualsSingleSteps :
    (0 : Int) < 3 ∧ (at0200 [0x01] zeros 0).script = [] ∧ ∃ n t, executeRun 3 (at0200 [0x01] zeros 0) = .next (n, t) :=
  ⟨by decide, rfl, _, _, rfl⟩

theorem witness_HaltedRunIdles :
    let s : State := { State.reset with halted := true }
    (0 : Int) < 10 ∧ s.faulted = false ∧ s.halted = true ∧ s.quiet = true := by decide

theorem witness_NonpositiveBudgetDoesNothing : (0 : Int) ≤ 0 ∧ (-5 : Int) ≤ 0 := by decide

theorem witness_FatalEndsRun :
    let s : State := { at0200 [0xFF, 0x34, 0x12] zeros 0 with cfg := { illegalPolicy := .fatal, openBusFill := 0 } }
    let d := s.atFetch.fetchInstr.1
    (0 : Int) < 50 ∧ s.running ∧ s.cfg.illegalPolicy = .fatal ∧ lookup d.b0 d.b1 d.b2 = none := by decide

theorem witness_FatalEndsRun_faulted : ({ State.reset with faulted := true } : State).faulted = true := rfl

theorem witness_LineEdgeLaws : State.reset.lines.irqLevel = .cleared := rfl

theorem witness_StateSetThenGet :
    StateKey.a ≠ .stk 7 ∧ ¬(StateKey.stk 7 = .pc ∧ StateKey.a = .ishadow) ∧ ¬(StateKey.stk 7 = .halted ∧ StateKey.a = .nmip) := by
  decide

/-- The smallest and the greatest `k` of the last clause. -/
theorem witness_StackIsRingOfEight :
    (1 ≤ (1 : Fin 9).val ∧ (1 : Fin 9).val ≤ 7) ∧ (1 ≤ (7 : Fin 9).val ∧ (7 : Fin 9).val ≤ 7) := by decide

/-- Each clause has an address of `mapped` (`witness_mapped`): RAM, ROM, a device, nothing; and one beside it. -/
theorem witness_BusReadsAndWrites :
    mapped.mem.wf = true ∧ mapped.backed 0x7FFF = true ∧ mapped.backed 0x8000 = true ∧
    kindAt mapped.map (0xA100 : Word).toNat = none ∧ kindAt mapped.map (0xA000 : Word).toNat = some .device ∧
    kindAt mapped.map (0x7FFF : Word).toNat = some .ram ∧ kindAt mapped.map (0x8000 : Word).toNat ≠ some .ram ∧
    (0x8000 : Word) ≠ 0x7FFF := by decide

/-- Program P5 and its two neighbours: the byte stored by an instruction that ends at 0005 is the first byte of the next one,
its second (P5) and its third. -/
theorem witness_StoreSeenByNextFetch :
    let s : State := { State.reset with pc := 0x0005, mem := fill [] 0x0005 [0xC1], regs := ab 0x77 0 }
    s.mem.wf = true ∧ kindAt s.map (0x0005 : Word).toNat = some .ram ∧ kindAt s.map (0x0007 : Word).toNat = some .ram ∧
      (∃ t, exec (.st .a 0x0005) s = .next t ∧ t.pc = 0x0005) ∧
      (∃ t, exec (.st .a 0x0006) s = .next t ∧ t.pc + 1 = 0x0006 ∧ 2 ≤ lengthOf t.fetchInstr.1.b0) ∧
      ∃ t, exec (.stX .a 0x0007) s = .next t ∧ s.indexedEa 0x0007 = 0x0007 ∧ t.pc + 2 = 0x0007 ∧ lengthOf t.fetchInstr.1.b0 = 3 :=
  ⟨by decide, by decide, by decide, ⟨_, rfl, rfl⟩, ⟨_, rfl, rfl, by decide⟩, _, rfl, rfl, rfl, by decide⟩

theorem witness_CmpResults :
    (∃ t, exec (.cmpI 0x0A) State.reset = .next t) ∧ ∃ t, exec (.cmpR .b) State.reset = .next t ∧ (0 : Byte) = State.reset.reg .b :=
  ⟨⟨_, rfl⟩, _, rfl, rfl⟩

theorem witness_StoreResults :
    mapped.mem.wf = true ∧ kindAt mapped.map (0x7FFF : Word).toNat = some .ram ∧
      kindAt mapped.map (0x8000 : Word).toNat ≠ some .ram := by decide

/-- Both outcomes of a conditional branch. -/
theorem witness_BranchResults :
    State.reset.flag .z = false ∧ ({ State.reset with f := 0x02 } : State).flag .z = true := by decide

end Sys2Proof.Tests
end

section
/-! SUPPORT. The records of a machine: every operation of the Engine and of the host appends to `diag_log` and to the
records of bus and HALTACK, and leaves the configuration and the map alone. -/

namespace Sys2Proof.Machine

/-! ## The order on states by their records -/

/-- `t` has every record of `s`, in the same place, and the configuration and map of `s` (spec/10_state.md R42;
46_system.md R237). -/
structure State.Extends (s t : State) : Prop where
  diagLog : s.diagLog <+: t.diagLog
  busLog : s.busLog <+: t.busLog
  haltackLog : s.haltackLog <+: t.haltackLog
  cfg : t.cfg = s.cfg
  map : t.map = s.map

theorem State.Extends.refl (s : State) : s.Extends s :=
  ⟨List.prefix_refl _, List.prefix_refl _, List.prefix_refl _, rfl, rfl⟩

theorem State.Extends.trans {s t u : State} (hst : s.Extends t) (htu : t.Extends u) : s.Extends u where
  diagLog := hst.diagLog.trans htu.diagLog
  busLog := hst.busLog.trans htu.busLog
  haltackLog := hst.haltackLog.trans htu.haltackLog
  cfg := htu.cfg.trans hst.cfg
  map := htu.map.trans hst.map

/-- What writes none of the five fields extends the state. -/
theorem State.Extends.of_eq {s t : State} (hdiag : t.diagLog = s.diagLog) (hbus : t.busLog = s.busLog)
    (hhaltack : t.haltackLog = s.haltackLog) (hcfg : t.cfg = s.cfg) (hmap : t.map = s.map) : s.Extends t :=
  ⟨hdiag ▸ List.prefix_refl _, hbus ▸ List.prefix_refl _, hhaltack ▸ List.prefix_refl _, hcfg, hmap⟩

/-- What extends a state extends every state with the same five fields. -/
theorem State.Extends.of_eq_left {s s' t : State} (h : s'.Extends t) (hdiag : s'.diagLog = s.diagLog)
    (hbus : s'.busLog = s.busLog) (hhaltack : s'.haltackLog = s.haltackLog) (hcfg : s'.cfg = s.cfg)
    (hmap : s'.map = s.map) : s.Extends t :=
  (State.Extends.of_eq hdiag hbus hhaltack hcfg hmap).trans h

/-! ## Shared operations -/

theorem setHalted_extends (s : State) (b : Bool) : s.Extends (s.setHalted b) := by
  rw [setHalted_eq]
  refine ⟨List.prefix_refl _, List.prefix_refl _, ?_, rfl, rfl⟩
  show s.haltackLog <+: if s.halted = b then s.haltackLog else s.haltackLog ++ [b]
  split
  · exact List.prefix_refl _
  · exact List.prefix_append _ _

/-- What writes the record of HALTACK as `setHalted` does, and none of the other four fields, extends the state. -/
theorem State.Extends.of_setHalted {s t : State} {b : Bool} (hdiag : t.diagLog = s.diagLog) (hbus : t.busLog = s.busLog)
    (hhaltack : t.haltackLog = (s.setHalted b).haltackLog) (hcfg : t.cfg = s.cfg) (hmap : t.map = s.map) : s.Extends t :=
  ⟨hdiag ▸ List.prefix_refl _, hbus ▸ List.prefix_refl _, hhaltack ▸ (setHalted_extends s b).haltackLog, hcfg, hmap⟩

theorem access_extends (s : State) (k : AccessKind) (a : Word) (v : Byte) : s.Extends (s.access k a v) :=
  ⟨List.prefix_refl _, List.prefix_append _ _, List.prefix_refl _, rfl, rfl⟩

theorem memWrite_extends (s : State) (a : Word) (v : Byte) : s.Extends (s.memWrite a v) :=
  (access_extends s .write a v).trans (.of_eq rfl rfl rfl rfl rfl)

theorem loadReg_extends (s : State) (r : Reg) (ea : Word) : s.Extends (s.loadReg r ea) :=
  (access_extends s .read ea _).trans (.of_eq rfl rfl rfl rfl rfl)

theorem charge_extends (s : State) (n : Nat) : s.Extends (s.charge n) := .of_eq rfl rfl rfl rfl rfl

theorem branch_extends (s : State) (cond : Bool) (rel8 : Byte) : s.Extends (s.branch cond rel8) := by
  cases cond <;> exact .of_eq rfl rfl rfl rfl rfl

theorem fetch_extends (s : State) : s.Extends s.fetch.2 :=
  (access_extends s .read s.pc _).trans (.of_eq rfl rfl rfl rfl rfl)

theorem fetchInstr_extends (s : State) : s.Extends s.fetchInstr.2 := by
  have hone := fetch_extends s
  have htwo := hone.trans (fetch_extends s.fetch.2)
  have hthree := htwo.trans (fetch_extends s.fetch.2.fetch.2)
  rcases fetchInstr_cases s with ⟨_, h⟩ | ⟨_, h⟩ | ⟨_, h⟩ <;> rw [h] <;> assumption

theorem illegalOpcode_extends (s : State) (ipc : Word) (b0 : Byte) : s.Extends (s.illegalOpcode ipc b0) := by
  cases h : s.cfg.illegalPolicy with
  | nopContinue =>
    rw [illegalOpcode_nop s ipc b0 h]
    exact ⟨List.prefix_append _ _, List.prefix_refl _, List.prefix_refl _, rfl, rfl⟩
  | fatal =>
    rw [illegalOpcode_fatal s ipc b0 h]
    exact ⟨List.prefix_append _ _, List.prefix_refl _, List.prefix_refl _, rfl, rfl⟩

/-- Of the records, a dispatch and a reset write that of HALTACK alone, as leaving Halted does. -/
theorem dispatch_haltackLog (s : State) (k : Interrupt) : (s.dispatch k).haltackLog = (s.setHalted false).haltackLog := by
  simp [dispatch_eq_pushes, setHalted_eq]

theorem performReset_haltackLog (s : State) : s.performReset.haltackLog = (s.setHalted false).haltackLog := by
  simp [State.performReset, setHalted_eq]

theorem dispatch_extends (s : State) (k : Interrupt) : s.Extends (s.dispatch k) :=
  .of_setHalted (dispatch_diagLog s k) (dispatch_busLog s k) (dispatch_haltackLog s k) (dispatch_cfg s k) (dispatch_map s k)

theorem performReset_extends (s : State) : s.Extends s.performReset :=
  .of_setHalted (performReset_diagLog s) (performReset_busLog s) (performReset_haltackLog s) (performReset_cfg s)
    (performReset_map s)

theorem checkpoint_extends (s : State) : s.Extends s.checkpoint := by
  rcases checkpoint_cases s with ⟨_, h⟩ | ⟨_, _, h⟩ | ⟨_, _, _, h⟩ | ⟨_, _, _, h⟩ <;> rw [h]
  · exact performReset_extends s
  · exact dispatch_extends s .nmi
  · exact dispatch_extends s .irq
  · exact .refl s

/-! ## Instructions, the Engine and the host -/

/-- Only `HLT`, the loads and the stores write a record at all; the branches fork but write none. -/
theorem exec_extends {i : Instr} {s t : State} (h : exec i s = .next t) : s.Extends t := by
  cases i with
  | hlt => cases h; exact (setHalted_extends s true).trans (charge_extends _ 1)
  | ld r a16 => cases h; exact (loadReg_extends s r _).trans (charge_extends _ 4)
  | ldX r a16 => cases h; exact (loadReg_extends s r _).trans (charge_extends _ 5)
  | st r a16 => cases h; exact (memWrite_extends s _ _).trans (charge_extends _ 4)
  | stX r a16 => cases h; exact (memWrite_extends s _ _).trans (charge_extends _ 5)
  | bra rel8 | beq rel8 | bne rel8 | bcs rel8 | bcc rel8 | bmi rel8 | bpl rel8 | bvs rel8 | bvc rel8 =>
    cases h; exact branch_extends s _ rel8
  | _ => cases h; exact .of_eq rfl rfl rfl rfl rfl

theorem runFetched_extends {d : Fetched} {s t : State} (h : runFetched d s = .next t) : s.Extends t := by
  unfold runFetched at h
  split at h
  · cases h; exact illegalOpcode_extends s _ _
  · exact (exec_extends h).of_eq_left rfl rfl rfl rfl rfl

theorem execOne_extends {s t : State} (h : execOne s = .next t) : s.Extends t :=
  ((fetchInstr_extends _).trans (runFetched_extends h)).of_eq_left rfl rfl rfl rfl rfl

theorem iteration_extends {s t : State} (h : iteration s = .next t) : s.Extends t := by
  refine (checkpoint_extends s).trans ?_
  unfold iteration afterCheckpoint at h
  split at h
  · cases h; exact .of_eq rfl rfl rfl rfl rfl
  · exact execOne_extends h

theorem runLoop_extends {fuel : Nat} {s t : State} (h : runLoop fuel s = .next t) : s.Extends t := by
  induction fuel generalizing s with
  | zero => cases h; exact .refl _
  | succ fuel ih =>
    rcases runLoop_succ fuel s with ⟨_, hstop⟩ | ⟨_, u, hu, hgo⟩
    · rw [hstop] at h; cases h; exact .refl _
    · exact (iteration_extends hu).trans (ih (hgo ▸ h))

theorem executeRun_extends {b n : Int} {s t : State} (h : executeRun b s = .next (n, t)) : s.Extends t := by
  rcases executeRun_cases h with ⟨_, _, rfl⟩ | ⟨_, _, _, rfl⟩ | ⟨_, _, _, hloop⟩
  · exact .refl _
  · exact .refl _
  · exact (runLoop_extends hloop).of_eq_left rfl rfl rfl rfl rfl

theorem stateSet_extends (s : State) (key : StateKey) (value : Nat) : s.Extends (s.stateSet key value) := by
  cases key with
  | halted => exact setHalted_extends s _
  | _ => exact .of_eq rfl rfl rfl rfl rfl

theorem perform_extends (s : State) (op : HostOp) : s.Extends (s.perform op) := by
  cases op with
  | setLine c => exact .of_eq rfl rfl rfl rfl rfl
  | stateSet key value => exact stateSet_extends s key value
  | deviceReset => exact performReset_extends s

theorem performAll_extends (s : State) (ops : List HostOp) : s.Extends (s.performAll ops) := by
  induction ops generalizing s with
  | nil => exact .refl s
  | cons op ops ih => exact (perform_extends s op).trans (ih _)

end Sys2Proof.Machine
end

section
/-! SUPPORT. Where a step goes, and the two statements about every step. -/

namespace Sys2Proof.Machine

/-- `execute_run` always returns (40_execution_engine.md R137). -/
theorem executeRun_next (b : Int) (s : State) : ∃ n t, executeRun b s = .next (n, t) := by
  unfold executeRun
  split
  · exact ⟨_, _, rfl⟩
  · split
    · exact ⟨_, _, rfl⟩
    · obtain ⟨t, ht⟩ := runLoop_next b.toNat { s with icount := b }
      rw [ht]
      exact ⟨_, _, rfl⟩

/-- The state after a run is the state that `execute_run` answers with. -/
theorem executeRun_afterRun (b : Int) (s : State) :
    ∃ n t, executeRun b s = .next (n, t) ∧ afterRun b s = .next t := by
  obtain ⟨n, t, h⟩ := executeRun_next b s
  exact ⟨n, t, h, by rw [afterRun, h]⟩

theorem step_unscripted {s : State} (h : s.script = []) : step s = afterRun 1 s := by
  unfold step
  rw [h]

theorem step_scripted {s : State} {q : Quantum} {rest : List Quantum} (h : s.script = q :: rest) :
    step s = afterRun q.budget (State.performAll { s with script := rest } q.ops) := by
  unfold step
  rw [h]

theorem afterRun_extends {b : Int} {s t : State} (h : afterRun b s = .next t) : s.Extends t := by
  obtain ⟨n, u, hrun, hafter⟩ := executeRun_afterRun b s
  rw [hafter] at h
  cases h
  exact executeRun_extends hrun

theorem step_extends {s t : State} (h : step s = .next t) : s.Extends t := by
  cases hs : s.script with
  | nil => exact afterRun_extends (step_unscripted hs ▸ h)
  | cons q rest =>
    have hops : s.Extends (State.performAll { s with script := rest } q.ops) :=
      (performAll_extends _ q.ops).of_eq_left rfl rfl rfl rfl rfl
    exact hops.trans (afterRun_extends (step_scripted hs ▸ h))

/-- Settles O21: every operation extends the records, so every step does. -/
theorem recordsOnlyGrow : Obligations.RecordsOnlyGrow := by
  intro s t h
  obtain ⟨hdiag, hbus, hhaltack, hcfg, hmap⟩ := step_extends h
  exact ⟨hdiag, hbus, hhaltack, hcfg, hmap⟩

/-- Settles O20: `execute_run` always returns, and a step is one run after the operations of its quantum, if it has one. -/
theorem stepAlwaysCompletes : Obligations.StepAlwaysCompletes := by
  intro s
  refine ⟨fun h => ?_, fun q rest h => ?_⟩
  · rw [step_unscripted h]
    exact executeRun_afterRun 1 s
  · rw [step_scripted h]
    exact executeRun_afterRun q.budget (State.performAll { s with script := rest } q.ops)

end Sys2Proof.Machine
end

section
/-! SUPPORT. `set_line` after the first reset and before it, `device_start`, and the first `device_reset`. -/

namespace Sys2Proof.Machine

/-! ## `set_line` on a running core -/

/-- A latch is set by a cleared-to-asserted change and otherwise kept (60_exceptions.md R243). -/
theorem or_risingEdge (latch : Bool) (was now : Level) :
    (latch || risingEdge was now) = if was = .cleared ∧ now = .asserted then true else latch := by
  cases was <;> cases now <;> simp [risingEdge]

theorem lineOfId_of_gt {n : Nat} (h : 2 < n) : lineOfId n = none := by
  obtain ⟨k, rfl⟩ := Nat.exists_eq_add_of_lt h
  rw [show 2 + k + 1 = k + 3 by omega]
  rfl

/-- Settles O39: by the definition of `set_line`, the latches read as a condition on the two levels. -/
theorem setLineRecords : Obligations.SetLineRecords := by
  refine ⟨fun s l => ⟨rfl, ?_, ?_⟩, rfl, rfl, rfl, fun n => lineOfId_of_gt⟩
  · rw [← or_risingEdge]
    rfl
  · rw [← or_risingEdge]
    rfl

/-! ## What a list of calls does to a line -/

/-- The level that the last call for a line gives it; cleared when there is no call for it. -/
def lastLevel (calls : List LineCall) (l : Line) : Level :=
  ((calls.filter (fun c => c.line == l)).getLast?.map LineCall.level).getD .cleared

/-- Some call asserts the line. -/
def asserts (calls : List LineCall) (l : Line) : Bool := calls.any (fun c => c.line == l && c.level == .asserted)

theorem lastLevel_snoc (calls : List LineCall) (c : LineCall) (l : Line) :
    lastLevel (calls ++ [c]) l = if c.line = l then c.level else lastLevel calls l := by
  unfold lastLevel
  split <;> simp_all [List.filter_append]

theorem asserts_snoc (calls : List LineCall) (c : LineCall) (l : Line) :
    asserts (calls ++ [c]) l = (asserts calls l || (c.line == l && c.level == .asserted)) := by
  simp [asserts]

/-- A line whose last level is asserted has been asserted by some call. -/
theorem asserts_of_lastLevel {calls : List LineCall} {l : Line} (h : lastLevel calls l = .asserted) :
    asserts calls l = true := by
  induction calls using List.reverseRecOn with
  | nil => cases h
  | append_singleton calls c ih =>
    rw [lastLevel_snoc] at h
    rw [asserts_snoc]
    split at h
    · simp_all
    · simp [ih h]

/-- From a cleared line, a latch that holds "asserted before" takes the next edge and so holds "asserted" again: the edge is
missed only where the line was asserted already. -/
theorem asserts_snoc_edge (calls : List LineCall) (c : LineCall) :
    asserts (calls ++ [c]) c.line = (asserts calls c.line || risingEdge (lastLevel calls c.line) c.level) := by
  rw [asserts_snoc]
  cases h : lastLevel calls c.line with
  | cleared => simp [risingEdge]
  | asserted => simp [asserts_of_lastLevel h]

/-- A call for one line is no call for another. -/
theorem asserts_snoc_ne (calls : List LineCall) {c : LineCall} {l : Line} (h : c.line ≠ l) :
    asserts (calls ++ [c]) l = asserts calls l := by
  simp [asserts_snoc, h]

/-! ## `device_start` and the calls before the first reset -/

/-- What `device_start` establishes (70_reset_and_hazards.md R280; 10_state.md R57). -/
def Started.fresh (cfg : Config) (outside : Surroundings) : Started :=
  { irqLevel := .cleared
    nmiLevel := .cleared
    resetLevel := .cleared
    nmiPending := none
    resetPending := false
    faulted := false
    diagLog := []
    haltack := false
    cfg := cfg
    outside := outside }

theorem configError_eq_none_iff (bits : Nat) (map : List Region) :
    configError bits map = none ↔ bits = 16 ∧ map.all Region.wf = true := by
  unfold configError
  split <;> simp_all

theorem deviceStart_of_none {bits : Nat} {cfg : Config} {outside : Surroundings}
    (h : configError bits outside.map = none) : deviceStart bits cfg outside = .ok (.fresh cfg outside) := by
  unfold deviceStart
  rw [h]
  rfl

theorem deviceStart_of_some {bits : Nat} {cfg : Config} {outside : Surroundings} {e : ConfigError}
    (h : configError bits outside.map = some e) : deviceStart bits cfg outside = .error e := by
  unfold deviceStart
  rw [h]

/-- After any calls of `set_line` before the first reset: each line at its last level, a latch set exactly when its line was
asserted, everything else as `device_start` left it. -/
theorem setLines_fresh (cfg : Config) (outside : Surroundings) (calls : List LineCall) :
    (Started.fresh cfg outside).setLines calls =
      { Started.fresh cfg outside with
        irqLevel := lastLevel calls .irq
        nmiLevel := lastLevel calls .nmi
        resetLevel := lastLevel calls .reset
        nmiPending := if asserts calls .nmi then some true else none
        resetPending := asserts calls .reset } := by
  induction calls using List.reverseRecOn with
  | nil => rfl
  | append_singleton calls c ih =>
    have hedge := asserts_snoc_edge calls c
    obtain ⟨line, level⟩ := c
    rw [Started.setLines, List.foldl_concat, ← Started.setLines, ih]
    cases line with
    | irq => simp [Started.setLine, lastLevel_snoc, asserts_snoc_ne]
    | nmi => cases hnmi : asserts calls .nmi <;> simp_all [Started.setLine, lastLevel_snoc, asserts_snoc_ne]
    | reset => simp_all [Started.setLine, lastLevel_snoc, asserts_snoc_ne]

/-- The first `device_reset` after those calls: the reset state in its surroundings, with the levels kept and the latches
zeroed (10_state.md R55, R56). -/
theorem deviceReset_setLines_fresh (cfg : Config) (outside : Surroundings) (calls : List LineCall) :
    ((Started.fresh cfg outside).setLines calls).deviceReset =
      { State.reset with
        lines :=
          { irqLevel := lastLevel calls .irq
            nmiLevel := lastLevel calls .nmi
            resetLevel := lastLevel calls .reset
            nmiPending := false
            resetPending := false }
        cfg := cfg
        map := outside.map
        mem := outside.mem
        busAnswers := outside.busAnswers
        haltackAnswers := outside.haltackAnswers
        script := outside.script } := by
  rw [setLines_fresh]
  rfl

/-- Settles O17: the two outcomes of `device_start` are those of its configuration check; the calls before the first reset
go by induction on their list, last call first. -/
theorem startThenReset : Obligations.StartThenReset := by
  refine ⟨fun bits cfg outside => ⟨fun hok => ?_, fun hbad => ?_⟩, fun _ => rfl⟩
  · have hstart := deviceStart_of_none (cfg := cfg) ((configError_eq_none_iff bits outside.map).2 hok)
    refine ⟨.fresh cfg outside, hstart, rfl, rfl, rfl, rfl, rfl, rfl, rfl, rfl, rfl, rfl, fun calls => ?_⟩
    have hlines := setLines_fresh cfg outside calls
    exact ⟨congrArg Started.irqLevel hlines, congrArg Started.nmiLevel hlines, congrArg Started.resetLevel hlines,
      congrArg Started.nmiPending hlines, congrArg Started.resetPending hlines,
      deviceReset_setLines_fresh cfg outside calls⟩
  · have herror : configError bits outside.map ≠ none := (configError_eq_none_iff bits outside.map).not.2 hbad
    obtain ⟨e, he⟩ := Option.ne_none_iff_exists'.1 herror
    exact ⟨e, deviceStart_of_some he⟩

end Sys2Proof.Machine
end

section
/-! SUPPORT. What a branch writes, and which flags a write of F and the shared operations on A leave. -/

namespace Sys2Proof.Machine

variable (s : State)

/-- A branch, taken or not, writes PC and the cycle counter and nothing else. -/
@[simp] theorem branch_eq (cond : Bool) (rel8 : Byte) :
    s.branch cond rel8 =
      { s with
        pc := if cond then s.pc + displacement rel8 else s.pc
        icount := s.icount - (if cond then 3 else 2 : Nat) - s.waitAcc } := by
  cases cond <;> rfl

/-- The mask of F covers every flag. -/
@[simp] theorem flag_setF (v : Byte) (q : Flag) : (s.setF v).flag q = v.getLsbD q.bit := by
  unfold State.flag
  rw [readF_setF, BitVec.getLsbD_and]
  cases q <;> simp [Flag.bit, flagMask]

@[simp] theorem flag_putZS (r : Reg) (v : Byte) (q : Flag) : (s.putZS r v).flag q = (s.setZS v).flag q := by
  unfold State.putZS
  rw [flag_setZS, flag_setZS]
  rfl

@[simp] theorem flag_putShift (v : Byte) (out : Bool) (q : Flag) :
    (s.putShift v out).flag q = ((s.setFlag .c out).setZS v).flag q := by
  unfold State.putShift
  rw [flag_setZS, flag_setZS]
  rfl

@[simp] theorem flag_aluAdd (b : Byte) (cin : Bool) (q : Flag) :
    (s.aluAdd b cin).flag q = (s.setCZSV (add8 (s.reg .a) b cin)).flag q := by
  unfold State.aluAdd
  rw [flag_setCZSV, flag_setCZSV]
  rfl

@[simp] theorem flag_aluSub (b : Byte) (bin : Bool) (q : Flag) :
    (s.aluSub b bin).flag q = (s.setCZSV (sub8 (s.reg .a) b bin)).flag q := by
  unfold State.aluSub
  rw [flag_setCZSV, flag_setCZSV]
  rfl

@[simp] theorem flag_aluCmp (b : Byte) (q : Flag) :
    (s.aluCmp b).flag q = (s.setCZSV (sub8 (s.reg .a) b false)).flag q := rfl

/-- `ADN` writes C and Z; S, V and I stay (42_arithmetic.md R171). -/
theorem flag_aluAdn_of_ne {q : Flag} (b : Byte) (hc : q ≠ .c) (hz : q ≠ .z) : (s.aluAdn b).flag q = s.flag q := by
  unfold State.aluAdn
  rw [flag_setFlag, if_neg hz, flag_setFlag, if_neg hc, setReg_flag]

end Sys2Proof.Machine
end

section
/-! SUPPORT. The invariant: what is kept by an iteration, by the host's operations and by the two loads of a counter is
kept by every step; and each operation keeps `State.Inv`. -/

namespace Sys2Proof.Machine

/-! ## From one iteration and one operation to one step -/

/-- A property of states that every building block of a step keeps. -/
structure Kept (P : State → Prop) : Prop where
  iteration : ∀ {s t}, P s → iteration s = .next t → P t
  perform : ∀ {s} (op : HostOp), P s → P (s.perform op)
  icount : ∀ {s} (n : Int), P s → P { s with icount := n }
  script : ∀ {s} (rest : List Quantum), P s → P { s with script := rest }

theorem performAll_keeps {P : State → Prop} (h : ∀ {s} (op : HostOp), P s → P (s.perform op)) {s : State} (hs : P s)
    (ops : List HostOp) : P (s.performAll ops) := by
  induction ops generalizing s with
  | nil => exact hs
  | cons op ops ih => exact ih (h op hs)

theorem runLoop_keeps {P : State → Prop} (hP : Kept P) {fuel : Nat} {s t : State} (hs : P s)
    (h : runLoop fuel s = .next t) : P t := by
  induction fuel generalizing s with
  | zero => cases h; exact hs
  | succ fuel ih =>
    rcases runLoop_succ fuel s with ⟨_, hstop⟩ | ⟨_, u, hu, hgo⟩
    · rw [hstop] at h; cases h; exact hs
    · exact ih (hP.iteration hs hu) (hgo ▸ h)

theorem afterRun_keeps {P : State → Prop} (hP : Kept P) {b : Int} {s t : State} (hs : P s) (h : afterRun b s = .next t) :
    P t := by
  obtain ⟨n, u, hrun, hafter⟩ := executeRun_afterRun b s
  rw [hafter] at h
  cases h
  rcases executeRun_cases hrun with ⟨_, _, rfl⟩ | ⟨_, _, _, rfl⟩ | ⟨_, _, _, hloop⟩
  · exact hs
  · exact hs
  · exact runLoop_keeps hP (hP.icount b hs) hloop

theorem step_keeps {P : State → Prop} (hP : Kept P) {s t : State} (hs : P s) (h : step s = .next t) : P t := by
  cases hscript : s.script with
  | nil => exact afterRun_keeps hP hs (step_unscripted hscript ▸ h)
  | cons q rest =>
    have hops := performAll_keeps hP.perform (hP.script rest hs) q.ops
    exact afterRun_keeps hP hops (step_scripted hscript ▸ h)

/-! ## The shared operations keep the invariant -/

/-- What writes F through its mask or not at all, and neither memory nor HALTACK, keeps the invariant. -/
theorem State.Inv.of_eq {s t : State} (hs : s.Inv) (hf : t.f = s.f ∨ ∃ v, t.f = v &&& flagMask) (hmem : t.mem = s.mem)
    (hhalted : t.halted = s.halted) (hlog : t.haltackLog = s.haltackLog) : t.Inv where
  flagBits := by
    rcases hf with hf | ⟨v, hf⟩ <;> rw [hf]
    · exact hs.flagBits
    · exact setF_high s v
  memory := hmem ▸ hs.memory
  haltack := by rw [hlog, hhalted, hs.haltack]

/-- HALTACK is driven to the new level exactly when the level changes, so what it reported last is `halted`. -/
theorem setHalted_inv {s : State} (hs : s.Inv) (b : Bool) : (s.setHalted b).Inv := by
  rw [setHalted_eq]
  refine ⟨hs.flagBits, hs.memory, ?_⟩
  show (if s.halted = b then s.haltackLog else s.haltackLog ++ [b]).getLastD false = b
  split
  · next hsame => rw [hs.haltack, hsame]
  · simp

theorem memWrite_inv {s : State} (hs : s.Inv) (a : Word) (v : Byte) : (s.memWrite a v).Inv :=
  ⟨hs.flagBits, memWrite_mem_wf hs.memory a v, hs.haltack⟩

theorem charge_inv {s : State} (hs : s.Inv) (n : Nat) : (s.charge n).Inv := hs.of_eq (.inl rfl) rfl rfl rfl

theorem fetch_inv {s : State} (hs : s.Inv) : s.fetch.2.Inv := hs.of_eq (.inl rfl) rfl rfl rfl

theorem fetchInstr_inv {s : State} (hs : s.Inv) : s.fetchInstr.2.Inv := by
  have hone := fetch_inv hs
  have htwo := fetch_inv hone
  have hthree := fetch_inv htwo
  rcases fetchInstr_cases s with ⟨_, h⟩ | ⟨_, h⟩ | ⟨_, h⟩ <;> rw [h] <;> assumption

theorem illegalOpcode_inv {s : State} (hs : s.Inv) (ipc : Word) (b0 : Byte) : (s.illegalOpcode ipc b0).Inv := by
  cases h : s.cfg.illegalPolicy with
  | nopContinue => rw [illegalOpcode_nop s ipc b0 h]; exact hs.of_eq (.inl rfl) rfl rfl rfl
  | fatal => rw [illegalOpcode_fatal s ipc b0 h]; exact hs.of_eq (.inl rfl) rfl rfl rfl

/-- A dispatch is pushes and a write of F, then leaving Halted, then PC, the latch and its charge. -/
theorem dispatch_inv {s : State} (hs : s.Inv) (k : Interrupt) : (s.dispatch k).Inv := by
  rw [dispatch_eq_pushes, acknowledge_eq]
  have hpushed : State.Inv { ((s.push s.pc).push (s.readF.setWidth 16)).setFlag .i false with ishadow := false } :=
    hs.of_eq (.inr ⟨_, rfl⟩) rfl rfl rfl
  exact (setHalted_inv hpushed false).of_eq (.inl rfl) rfl rfl rfl

/-- A reset writes memory and HALTACK as leaving Halted does, and zeroes F. -/
theorem performReset_inv {s : State} (hs : s.Inv) : s.performReset.Inv :=
  (setHalted_inv hs false).of_eq (.inr ⟨0, performReset_f s⟩) (by simp [setHalted_eq]) (by simp [setHalted_eq])
    (performReset_haltackLog s)

theorem checkpoint_inv {s : State} (hs : s.Inv) : s.checkpoint.Inv := by
  rcases checkpoint_cases s with ⟨_, h⟩ | ⟨_, _, h⟩ | ⟨_, _, _, h⟩ | ⟨_, _, _, h⟩ <;> rw [h]
  · exact performReset_inv hs
  · exact dispatch_inv hs .nmi
  · exact dispatch_inv hs .irq
  · exact hs

/-! ## Instructions, the Engine and the host keep it -/

/-- An instruction leaves F alone or writes it through its mask (10_state.md R26). -/
theorem exec_f {i : Instr} {s t : State} (h : exec i s = .next t) : t.f = s.f ∨ ∃ v, t.f = v &&& flagMask := by
  cases i with
  | addR _ | addI _ | adcR _ | adcI _ | subR _ | subI _ | sbcR _ | sbcI _ | cmpR _ | cmpI _ | adnR _ | adnI _ | andR _
  | andI _ | orR _ | orI _ | xorR _ | xorI _ | inc _ | dec _ | shl | shr | rol | ror | clc | sec | ei | di | taf | reti =>
    cases h; exact .inr ⟨_, rfl⟩
  | hlt => cases h; rw [charge_f, setHalted_eq]; exact .inl rfl
  | bra _ | beq _ | bne _ | bcs _ | bcc _ | bmi _ | bpl _ | bvs _ | bvc _ => cases h; rw [branch_eq]; exact .inl rfl
  | _ => cases h; exact .inl rfl

theorem exec_inv {i : Instr} {s t : State} (hs : s.Inv) (h : exec i s = .next t) : t.Inv := by
  have hf := exec_f h
  cases i with
  | hlt => cases h; exact charge_inv (setHalted_inv hs true) 1
  | st r a16 => cases h; exact charge_inv (memWrite_inv hs _ _) 4
  | stX r a16 => cases h; exact charge_inv (memWrite_inv hs _ _) 5
  | bra _ | beq _ | bne _ | bcs _ | bcc _ | bmi _ | bpl _ | bvs _ | bvc _ =>
    cases h; rw [branch_eq]; exact hs.of_eq (.inl rfl) rfl rfl rfl
  | _ => cases h; exact hs.of_eq hf rfl rfl rfl

theorem runFetched_inv {d : Fetched} {s t : State} (hs : s.Inv) (h : runFetched d s = .next t) : t.Inv := by
  unfold runFetched at h
  split at h
  · cases h; exact illegalOpcode_inv hs _ _
  · have hcleared : State.Inv { s with ishadow := false } := hs.of_eq (.inl rfl) rfl rfl rfl
    exact exec_inv hcleared h

theorem execOne_inv {s t : State} (hs : s.Inv) (h : execOne s = .next t) : t.Inv := by
  have hzeroed : State.Inv { s with waitAcc := 0 } := hs.of_eq (.inl rfl) rfl rfl rfl
  exact runFetched_inv (fetchInstr_inv hzeroed) h

theorem iteration_inv {s t : State} (hs : s.Inv) (h : iteration s = .next t) : t.Inv := by
  have hcheck := checkpoint_inv hs
  unfold iteration afterCheckpoint at h
  split at h
  · cases h; exact hcheck.of_eq (.inl rfl) rfl rfl rfl
  · exact execOne_inv hcheck h

theorem stateSet_inv {s : State} (hs : s.Inv) (key : StateKey) (value : Nat) : (s.stateSet key value).Inv := by
  cases key with
  | halted => exact setHalted_inv hs _
  | f => exact hs.of_eq (.inr ⟨_, rfl⟩) rfl rfl rfl
  | _ => exact hs.of_eq (.inl rfl) rfl rfl rfl

theorem perform_inv {s : State} (op : HostOp) (hs : s.Inv) : (s.perform op).Inv := by
  cases op with
  | setLine c => exact hs.of_eq (.inl rfl) rfl rfl rfl
  | stateSet key value => exact stateSet_inv hs key value
  | deviceReset => exact performReset_inv hs

theorem kept_inv : Kept State.Inv where
  iteration := iteration_inv
  perform := perform_inv
  icount _ hs := hs.of_eq (.inl rfl) rfl rfl rfl
  script _ hs := hs.of_eq (.inl rfl) rfl rfl rfl

/-- Settles O19: each building block of a step keeps the invariant, the induction over the loop and over the host's
operations being `step_keeps`. -/
theorem stepKeepsInvariant : Obligations.StepKeepsInvariant := fun _ _ => step_keeps kept_inv

/-- Settles O18, by evaluation of the one state. -/
theorem invariantAtReset : Obligations.InvariantAtReset := ⟨rfl, reset_mem_wf, rfl⟩

/-! ## The faulted core -/

/-- What stays of a faulted core under the host's operations: the fault, the records of accesses and illegal opcodes, memory
(70_reset_and_hazards.md R284). -/
structure State.SameDead (s t : State) : Prop where
  faulted : t.faulted = s.faulted
  busLog : t.busLog = s.busLog
  diagLog : t.diagLog = s.diagLog
  mem : t.mem = s.mem

theorem State.SameDead.trans {s t u : State} (hst : s.SameDead t) (htu : t.SameDead u) : s.SameDead u :=
  ⟨htu.faulted.trans hst.faulted, htu.busLog.trans hst.busLog, htu.diagLog.trans hst.diagLog, htu.mem.trans hst.mem⟩

theorem setHalted_sameDead (s : State) (b : Bool) : s.SameDead (s.setHalted b) := by
  rw [setHalted_eq]
  exact ⟨rfl, rfl, rfl, rfl⟩

theorem perform_sameDead (s : State) (op : HostOp) : s.SameDead (s.perform op) := by
  cases op with
  | setLine c => exact ⟨rfl, rfl, rfl, rfl⟩
  | deviceReset => exact ⟨performReset_faulted s, performReset_busLog s, performReset_diagLog s, performReset_mem s⟩
  | stateSet key value =>
    cases key with
    | halted => exact setHalted_sameDead s _
    | _ => exact ⟨rfl, rfl, rfl, rfl⟩

theorem performAll_sameDead (s : State) (ops : List HostOp) : s.SameDead (s.performAll ops) :=
  performAll_keeps (fun op h => h.trans (perform_sameDead _ op)) ⟨rfl, rfl, rfl, rfl⟩ ops

/-- A run of a faulted core does nothing (40_execution_engine.md R137). -/
theorem afterRun_faulted {s : State} (b : Int) (h : s.faulted = true) : afterRun b s = .next s := by
  rw [afterRun, executeRun, if_pos h]

/-- Settles O22: `execute_run` does nothing to a faulted core, and the host's operations leave the four items alone. -/
theorem faultedCoreStaysDead : Obligations.FaultedCoreStaysDead := by
  intro s t hs h
  cases hscript : s.script with
  | nil =>
    rw [step_faulted hscript hs] at h
    cases h
    exact ⟨hs, rfl, rfl, rfl, fun _ => rfl⟩
  | cons q rest =>
    have hops := performAll_sameDead { s with script := rest } q.ops
    rw [step_scripted hscript, afterRun_faulted _ (hops.faulted.trans hs)] at h
    cases h
    exact ⟨hops.faulted.trans hs, hops.busLog, hops.diagLog, hops.mem, nofun⟩

end Sys2Proof.Machine
end

section
/-! SUPPORT. What an instruction writes and what it leaves alone: flags, general registers, the return stack, the control
state. -/

namespace Sys2Proof.Machine

/-! ## Flags and registers -/

/-- Settles O23, by the groups of the table of R27: the shared operation of each group leaves an unlisted flag alone. -/
theorem flagsWrittenAsListed : Obligations.FlagsWrittenAsListed := by
  intro i s t fl h hfl
  cases i with
  | taf | reti => cases hfl
  | addR _ | addI _ | adcR _ | adcI _ | subR _ | subI _ | sbcR _ | sbcI _ | cmpR _ | cmpI _ =>
    cases h; cases fl <;> simp_all [writesFlag]
  | adnR _ | adnI _ =>
    cases h
    have hne : fl ≠ .c ∧ fl ≠ .z := by simpa [writesFlag] using hfl
    exact flag_aluAdn_of_ne s _ hne.1 hne.2
  | andR _ | andI _ | orR _ | orI _ | xorR _ | xorI _ | inc _ | dec _ | shl | shr | rol | ror =>
    cases h; cases fl <;> simp_all [writesFlag]
  | clc | sec =>
    cases h
    have hne : fl ≠ .c := by simpa [writesFlag] using hfl
    exact (flag_setFlag s .c fl _).trans (if_neg hne)
  | ei | di =>
    cases h
    have hne : fl ≠ .i := by simpa [writesFlag] using hfl
    exact (flag_setFlag s .i fl _).trans (if_neg hne)
  | hlt => cases h; rw [charge_flag, setHalted_eq]; rfl
  | bra _ | beq _ | bne _ | bcs _ | bcc _ | bmi _ | bpl _ | bvs _ | bvc _ => cases h; rw [branch_eq]; rfl
  | _ => cases h; rfl

/-- An instruction leaves the register file alone but for the one register it is listed to write. -/
theorem exec_regs {i : Instr} {s t : State} (h : exec i s = .next t) :
    t.regs = s.regs ∨ ∃ r v, writesReg i = some r ∧ t.regs = s.regs.set r v := by
  cases i with
  | movAR _ | movRA _ | tfa | ldi _ _ | addR _ | addI _ | adcR _ | adcI _ | subR _ | subI _ | sbcR _ | sbcI _ | adnR _
  | adnI _ | andR _ | andI _ | orR _ | orI _ | xorR _ | xorI _ | shl | shr | rol | ror | inc _ | dec _ | ld _ _ | ldX _ _ =>
    cases h; exact .inr ⟨_, _, rfl, rfl⟩
  | hlt => cases h; rw [charge_regs, setHalted_eq]; exact .inl rfl
  | bra _ | beq _ | bne _ | bcs _ | bcc _ | bmi _ | bpl _ | bvs _ | bvc _ => cases h; rw [branch_eq]; exact .inl rfl
  | _ => cases h; exact .inl rfl

/-- Settles O24: a write of one register leaves the three others alone. -/
theorem registersWrittenAsListed : Obligations.RegistersWrittenAsListed := by
  intro i s t r h hr
  rcases exec_regs h with hregs | ⟨q, v, hq, hregs⟩
  · rw [State.reg, hregs, State.reg]
  · have hne : r ≠ q := fun e => hr (e ▸ hq)
    rw [State.reg, hregs, regs_get_set, if_neg hne, State.reg]

/-! ## The return stack -/

/-- Settles O26: of the instructions only `CALL` pushes, and only `RET` and `RETI` move the level down. -/
theorem stackUsers : Obligations.StackUsers := by
  intro i s t h
  cases i with
  | call a16 =>
    cases h
    exact ⟨fun hne => absurd rfl (hne a16), fun hne => absurd rfl (hne a16), fun _ => rfl, nofun, nofun⟩
  | ret => cases h; exact ⟨fun _ => rfl, fun _ hne => absurd rfl hne, nofun, fun _ => rfl, nofun⟩
  | reti =>
    cases h
    refine ⟨fun _ => rfl, fun _ _ hne => absurd rfl hne, nofun, nofun, fun _ => ?_⟩
    rw [charge_spl, returnFromInterrupt_spl]
    bv_omega
  | hlt =>
    cases h; rw [charge_stk, charge_spl, setHalted_eq]
    exact ⟨fun _ => rfl, fun _ _ _ => rfl, nofun, nofun, nofun⟩
  | bra _ | beq _ | bne _ | bcs _ | bcc _ | bmi _ | bpl _ | bvs _ | bvc _ =>
    cases h; rw [branch_eq]; exact ⟨fun _ => rfl, fun _ _ _ => rfl, nofun, nofun, nofun⟩
  | _ => cases h; exact ⟨fun _ => rfl, fun _ _ _ => rfl, nofun, nofun, nofun⟩

/-- The flags `RETI` loads are bits 4:0 of the popped entry. -/
theorem flag_returnFromInterrupt (s : State) (fl : Flag) :
    s.returnFromInterrupt.flag fl = s.top.getLsbD fl.bit := by
  have hbyte : s.returnFromInterrupt.flag fl = (s.top.setWidth 8).getLsbD fl.bit := flag_setF s _ fl
  rw [hbyte, BitVec.getLsbD_setWidth]
  cases fl <;> simp [Flag.bit]

/-- Settles O60: two pops go down two entries, and the first loads F through its mask. -/
theorem retiResult : Obligations.RetiResult := by
  intro s
  have hspl : s.spl - 1 - 1 = s.spl - 2 := by bv_omega
  refine ⟨⟨_, rfl, flag_returnFromInterrupt s, setF_high s _, ?_⟩, rfl⟩
  simp only [← hspl]
  rfl

/-! ## The control state -/

/-- Settles O27: the meanings that touch the control state are `EI`, `HLT`, the four memory forms and the control transfers;
all others write registers and flags only. -/
theorem instructionsLeaveSystemState : Obligations.InstructionsLeaveSystemState := by
  intro i s t h
  cases i with
  | ei =>
    cases h
    exact ⟨rfl, rfl, rfl, rfl, rfl, fun hne => absurd rfl hne, fun _ => ⟨rfl, rfl⟩, fun _ => rfl, fun _ _ => rfl⟩
  | hlt =>
    cases h
    simp [setHalted_eq]
  | ld _ _ | ldX _ _ | st _ _ | stX _ _ =>
    cases h; exact ⟨rfl, rfl, rfl, rfl, rfl, fun _ => rfl, fun _ => ⟨rfl, rfl⟩, fun _ => rfl, nofun⟩
  | bra _ | beq _ | bne _ | bcs _ | bcc _ | bmi _ | bpl _ | bvs _ | bvc _ =>
    cases h; rw [branch_eq]
    exact ⟨rfl, rfl, rfl, rfl, rfl, fun _ => rfl, fun _ => ⟨rfl, rfl⟩, nofun, fun _ _ => rfl⟩
  | jmp _ | call _ | ret | reti =>
    cases h; exact ⟨rfl, rfl, rfl, rfl, rfl, fun _ => rfl, fun _ => ⟨rfl, rfl⟩, nofun, fun _ _ => rfl⟩
  | _ => cases h; exact ⟨rfl, rfl, rfl, rfl, rfl, fun _ => rfl, fun _ => ⟨rfl, rfl⟩, fun _ => rfl, fun _ _ => rfl⟩

/-- Settles O28: what no instruction but `EI` touches stays cleared; and a shadowed IRQ is not serviceable. -/
theorem shadowLastsOneInstruction : Obligations.ShadowLastsOneInstruction := by
  refine ⟨fun i s t h => ⟨fun hset => ?_, fun hei => ?_⟩, fun s hshadow hreset hnmi => ?_⟩
  · by_contra hne
    obtain ⟨_, _, _, _, _, hkeep, _⟩ := instructionsLeaveSystemState i _ t h
    exact Bool.false_ne_true ((hkeep hne).symm.trans hset)
  · subst hei
    cases h
    rfl
  · exact checkpoint_quiet (by simp [State.quiet, State.irqServiceable, hshadow, hreset, hnmi])

end Sys2Proof.Machine
end

section
/-! SUPPORT. Fetches from memory, the values a reset leaves, the return stack as a ring. -/

namespace Sys2Proof.Machine

/-! ## Fetches from memory -/

theorem busByte_of_backed {s : State} {a : Word} (h : s.backed a = true) : s.busByte a = s.peek a := by
  refine busByte_of_memory s ?_
  unfold State.backed at h
  split at h <;> simp_all

/-- Settles O7: a fetch changes neither memory nor the map, so each byte fetched is the one memory holds at the start. -/
theorem fetchFromMemory : Obligations.FetchFromMemory := by
  intro s h0 h1 h2
  have hb0 : s.fetch.1 = s.peek s.pc := busByte_of_backed h0
  have hb1 : s.fetch.2.fetch.1 = s.peek (s.pc + 1) := busByte_of_backed (s := s.fetch.2) h1
  have hpc : s.fetch.2.fetch.2.pc = s.pc + 2 := by
    show s.pc + 1 + 1 = s.pc + 2
    bv_omega
  have hb2 : s.fetch.2.fetch.2.fetch.1 = s.peek (s.pc + 2) := by
    rw [fetch_fst, hpc]
    exact busByte_of_backed (s := s.fetch.2.fetch.2) h2
  rcases fetchInstr_cases s with ⟨hlen, h⟩ | ⟨hlen, h⟩ | ⟨hlen, h⟩ <;>
    simp only [h, ← hb0, ← hb1, ← hb2, hlen] <;> simp

/-! ## Reset -/

@[simp] theorem performReset_spl (s : State) : s.performReset.spl = 0 := by
  simp [State.performReset, setHalted_eq]

@[simp] theorem performReset_stk (s : State) : s.performReset.stk = Vector.replicate 8 0 := by
  simp [State.performReset, setHalted_eq]

/-- A reset whose HALTACK callback makes no call zeroes the latches and keeps the levels (10_state.md R55, R56). -/
theorem performReset_lines_of_no_call (s : State) (h : s.haltackAnswers = []) :
    s.performReset.lines = { s.lines with nmiPending := false, resetPending := false } := by
  simp [State.performReset, setHalted_eq, h, LineState.setAll]

theorem regs_get_zero (r : Reg) : Regs.get { a := 0, b := 0, x := 0, y := 0 } r = 0 := by
  cases r <;> rfl

/-- Settles O16, item by item of the table of R55. -/
theorem resetValues : Obligations.ResetValues := by
  refine ⟨⟨rfl, regs_get_zero, rfl, rfl, fun k => ?_, rfl, rfl, rfl, rfl, rfl, rfl, rfl, rfl, rfl⟩, fun s h => ?_⟩
  · simp [State.reset]
  · have hlines := performReset_lines_of_no_call s h
    have hreg (r : Reg) : s.performReset.reg r = 0 := by
      rw [State.reg, performReset_regs, regs_get_zero]
    have hlog : s.performReset.haltackLog = if s.halted then s.haltackLog ++ [false] else s.haltackLog := by
      rw [performReset_haltackLog, setHalted_eq]
      cases s.halted <;> rfl
    simp [hlines, hreg, hlog, State.readF]

/-! ## The return stack -/

/-- The entry of the stack at an index. -/
def State.entry (s : State) (k : BitVec 3) : Word := s.stk[k.toNat]'k.isLt

theorem entry_push_self (s : State) (v : Word) : (s.push v).entry s.spl = v := by
  simp [State.entry]

theorem entry_push_of_ne (s : State) (v : Word) {k : BitVec 3} (h : k ≠ s.spl) : (s.push v).entry k = s.entry k :=
  stk_push_ne s v k h

/-- Several pushes, in order. -/
def State.pushes (s : State) (vs : List Word) : State := vs.foldl State.push s

theorem pushes_snoc (s : State) (vs : List Word) (v : Word) : s.pushes (vs ++ [v]) = (s.pushes vs).push v := by
  simp [State.pushes]

theorem spl_pushes (s : State) (vs : List Word) : (s.pushes vs).spl = s.spl + BitVec.ofNat 3 vs.length := by
  induction vs using List.reverseRecOn with
  | nil => simp [State.pushes]
  | append_singleton vs v ih =>
    rw [pushes_snoc, push_spl, ih, List.length_append, List.length_singleton]
    bv_omega

/-- Fewer than eight steps around the ring lead to another entry. -/
theorem spl_add_ne (k : BitVec 3) {i n : Nat} (hi : i < n) (hn : n < i + 8) :
    k + BitVec.ofNat 3 i ≠ k + BitVec.ofNat 3 n := by
  bv_omega

/-- After any pushes the last eight values pushed are on the stack, each where it was pushed (10_state.md R35). -/
theorem entry_pushes (s : State) (vs : List Word) {i : Nat} {v : Word} (hv : vs[i]? = some v)
    (hrecent : vs.length ≤ i + 8) : (s.pushes vs).entry (s.spl + BitVec.ofNat 3 i) = v := by
  induction vs using List.reverseRecOn with
  | nil => simp at hv
  | append_singleton vs w ih =>
    rw [List.length_append, List.length_singleton] at hrecent
    rw [pushes_snoc]
    rcases Nat.lt_trichotomy i vs.length with hi | rfl | hi
    · rw [entry_push_of_ne _ _ (by rw [spl_pushes]; exact spl_add_ne s.spl hi (by omega))]
      exact ih (by rwa [List.getElem?_append_left hi] at hv) (by omega)
    · rw [← spl_pushes, entry_push_self]
      simpa using hv
    · rw [List.getElem?_eq_none (by simp; omega)] at hv
      cases hv

/-- Settles O43: nine pushes are a case of `entry_pushes`, and the ninth value is the one that comes round to SPL. -/
theorem stackIsRingOfEight : Obligations.StackIsRingOfEight := by
  refine ⟨fun s v => ⟨entry_push_self s v, ?_, ?_, rfl, top_push s v⟩, fun s v => ?_⟩
  · rw [push_spl]
    bv_omega
  · rw [drop_spl]
    bv_omega
  · have hpushes : (List.finRange 9).foldl (fun u k => u.push (v k)) s = s.pushes ((List.finRange 9).map v) :=
      List.foldl_map.symm
    have hentry (k : Fin 9) (hk : 1 ≤ k.val) :
        (s.pushes ((List.finRange 9).map v)).entry (s.spl + BitVec.ofNat 3 k.val) = v k :=
      entry_pushes s _ (by simp) (by simp; omega)
    have hround : s.spl + BitVec.ofNat 3 (8 : Fin 9).val = s.spl := by simp
    rw [hpushes]
    refine ⟨?_, ?_, fun k hk _ => hentry k hk⟩
    · rw [spl_pushes]
      simp
    · have hlast := hentry 8 (by decide)
      rwa [hround] at hlast

end Sys2Proof.Machine
end

section
/-! SUPPORT. The State Exporter: keys, and what `state_get` gives after `state_set`. -/

namespace Sys2Proof.Machine

/-! ## Keys -/

/-- Every mask of R48 is all ones, so masking is a remainder. -/
theorem and_keyMask (key : StateKey) (v : Nat) : v &&& keyMask key = v % (keyMask key + 1) := by
  have hones : ∃ n, keyMask key = 2 ^ n - 1 := by
    cases key with
    | pc | stk _ => exact ⟨16, rfl⟩
    | f => exact ⟨5, rfl⟩
    | a | b | x | y => exact ⟨8, rfl⟩
    | spl => exact ⟨3, rfl⟩
    | nmip | ishadow | halted => exact ⟨1, rfl⟩
  obtain ⟨n, hn⟩ := hones
  rw [hn, Nat.and_two_pow_sub_one_eq_mod, Nat.sub_add_cancel Nat.one_le_two_pow]

/-- A bit written as a number (10_state.md R50). -/
theorem and_one_beq_one (v : Nat) : (v &&& 1 == 1) = decide (v % 2 = 1) := by
  rw [Nat.and_one_is_mod]
  rfl

theorem toNat_decide_mod_two (v : Nat) : (decide (v % 2 = 1)).toNat = v % 2 := by
  rcases Nat.mod_two_eq_zero_or_one v with h | h <;> simp [h]

/-- A number masked to a width is stored in that width as it is. -/
theorem toNat_ofNat_and_ones (w v : Nat) : (BitVec.ofNat w (v &&& (2 ^ w - 1))).toNat = v &&& (2 ^ w - 1) := by
  rw [BitVec.toNat_ofNat]
  exact Nat.mod_eq_of_lt (Nat.and_lt_two_pow v (Nat.sub_lt (Nat.two_pow_pos w) Nat.one_pos))

/-- Masking F twice is masking it once. -/
theorem ofNat_and_flagMask (v : Nat) : BitVec.ofNat 8 (v &&& 0x1F) &&& flagMask = BitVec.ofNat 8 (v % 32) := by
  have hmask (n : Nat) : n &&& 31 = n % 32 := Nat.and_two_pow_sub_one_eq_mod n 5
  apply BitVec.eq_of_toNat_eq
  rw [BitVec.toNat_and, BitVec.toNat_ofNat, BitVec.toNat_ofNat, show flagMask.toNat = 31 from rfl, hmask, hmask]
  omega

theorem keyOfIndex_keyIndex (key : StateKey) : keyOfIndex (keyIndex key) = some key := by
  cases key with
  | stk k =>
    show keyOfIndex (8 + k.val) = _
    unfold keyOfIndex
    rw [dif_pos (by omega)]
    simp
  | _ => rfl

theorem keyOfIndex_of_gt {n : Nat} (h : 18 < n) : keyOfIndex n = none := by
  obtain ⟨k, rfl⟩ := Nat.exists_eq_add_of_le' h
  unfold keyOfIndex
  rw [dif_neg (by omega)]
  rfl

theorem keyOfIndex_eq_none_iff (n : Nat) : keyOfIndex n = none ↔ n = 7 ∨ 18 < n := by
  by_cases h : 18 < n
  · simp [keyOfIndex_of_gt h, h]
  · interval_cases n <;> decide

/-! ## `state_set`, then `state_get` -/

/-- What `state_set` stores, `state_get` returns, masked (10_state.md R49, R50). -/
theorem stateGet_stateSet_same (s : State) (key : StateKey) (v : Nat) :
    (s.stateSet key v).stateGet key = v % (keyMask key + 1) := by
  rw [← and_keyMask]
  have hbit : (v &&& 1 == 1).toNat = v &&& 1 := by
    rw [and_one_beq_one, toNat_decide_mod_two, Nat.and_one_is_mod]
  cases key with
  | f =>
    have hmask : v &&& 31 = v % 32 := Nat.and_two_pow_sub_one_eq_mod v 5
    show (State.readF (s.setF (BitVec.ofNat 8 (v &&& 31)))).toNat = v &&& 31
    rw [readF_setF, ofNat_and_flagMask, hmask, BitVec.toNat_ofNat]
    omega
  | nmip | ishadow => exact hbit
  | halted =>
    show (s.setHalted _).halted.toNat = _
    rw [setHalted_eq]
    exact hbit
  | pc => exact toNat_ofNat_and_ones 16 v
  | a | b | x | y => exact toNat_ofNat_and_ones 8 v
  | spl => exact toNat_ofNat_and_ones 3 v
  | stk k => exact (congrArg BitVec.toNat (Vector.getElem_set_self k.isLt)).trans (toNat_ofNat_and_ones 16 v)

/-- Every other key keeps its value, but for the two side effects of R51. -/
theorem stateGet_stateSet_ne (s : State) {key other : StateKey} (v : Nat) (hne : other ≠ key)
    (hpc : ¬(key = .pc ∧ other = .ishadow)) (hhalted : ¬(key = .halted ∧ other = .nmip)) :
    (s.stateSet key v).stateGet other = s.stateGet other := by
  cases key with
  | stk k =>
    cases other with
    | stk j =>
      have hval : k.val ≠ j.val := fun e => hne (congrArg StateKey.stk (Fin.ext e.symm))
      simp [State.stateSet, State.stateGet, Vector.getElem_set_ne, hval]
    | _ => rfl
  | halted =>
    have hset : s.stateSet .halted v = s.setHalted (v &&& 1 == 1) := rfl
    rw [hset, setHalted_eq]
    cases other with
    | halted => exact absurd rfl hne
    | nmip => exact absurd ⟨rfl, rfl⟩ hhalted
    | _ => rfl
  | pc =>
    cases other with
    | pc => exact absurd rfl hne
    | ishadow => exact absurd ⟨rfl, rfl⟩ hpc
    | _ => rfl
  | _ => cases other <;> simp_all [State.stateSet, State.stateGet, State.readF, State.reg]

/-- Settles O41: the table by evaluation, the two laws of `state_set` key by key. -/
theorem stateSetThenGet : Obligations.StateSetThenGet := by
  refine ⟨by simp [keyIndex], by simp [keyMask], by simp [keyWidth], fun key => ?_, fun s => by simp [State.stateGet],
    stateGet_stateSet_same, fun s _ _ v => stateGet_stateSet_ne s v, keyOfIndex_keyIndex, keyOfIndex_eq_none_iff⟩
  cases key <;> simp [keyCanonical]

/-- Settles O42: the three writes with a side effect, their masks as remainders. -/
theorem stateSetSideEffects : Obligations.StateSetSideEffects := by
  intro s v
  refine ⟨?_, ?_, ?_⟩
  · have hword : BitVec.ofNat 16 (v &&& 0xFFFF) = BitVec.ofNat 16 v := by
      rw [show v &&& 0xFFFF = v % 2 ^ 16 from Nat.and_two_pow_sub_one_eq_mod v 16]
      exact BitVec.eq_of_toNat_eq (by simp)
    exact congrArg (fun w => { s with pc := w, ishadow := false }) hword
  · rw [← and_one_beq_one]
    exact setHalted_eq s _
  · exact congrArg (fun b => { s with f := b }) (ofNat_and_flagMask v)

end Sys2Proof.Machine
end

section
/-! SUPPORT. What the bus answers and what memory holds after a write; the loads and the stores. -/

namespace Sys2Proof.Machine

/-! ## Reading and writing -/

/-- RAM takes a write; anything else leaves memory alone (20_memory.md R64, 44_load_store.md R202). -/
theorem storedMem_eq (s : State) (a : Word) (v : Byte) :
    s.storedMem a v = if kindAt s.map a.toNat = some .ram then s.mem.write a.toNat v else s.mem := by
  unfold State.storedMem
  split <;> simp [*]

theorem peek_memWrite {s : State} (h : s.mem.wf = true) (a : Word) (v : Byte) (b : Word) :
    (s.memWrite a v).peek b = if kindAt s.map a.toNat = some .ram ∧ b = a then v else s.peek b := by
  rw [State.peek, memWrite_mem, storedMem_eq]
  split
  · next hram => rw [Memory.read_write h]; simp [hram, BitVec.toNat_inj, State.peek]
  · next hram => simp [hram, State.peek]

theorem busByte_of_unmapped {s : State} {a : Word} (h : kindAt s.map a.toNat = none) : s.busByte a = s.cfg.openBusFill := by
  rw [State.busByte, h]

theorem busByte_of_device {s : State} {a : Word} (h : kindAt s.map a.toNat = some .device) :
    s.busByte a = s.nextAnswer.deviceByte := by
  rw [State.busByte, h]

/-- Settles O44: a read by what is mapped, a write by whether RAM is. -/
theorem busReadsAndWrites : Obligations.BusReadsAndWrites := by
  intro s a v hwf
  refine ⟨busByte_of_backed, busByte_of_unmapped, busByte_of_device, rfl, fun hram => ?_, fun hram => ?_,
    fun b hb => ?_⟩ <;>
    rw [peek_memWrite hwf]
  · exact if_pos ⟨hram, rfl⟩
  · exact if_neg fun h => hram h.1
  · exact if_neg fun h => hb h.2

/-! ## Loads and stores -/

/-- Settles O55: a load is one access and one write of a register. -/
theorem loadResults : Obligations.LoadResults := fun s _ a16 =>
  ⟨rfl, rfl, indexedEa_toNat s a16, rfl, rfl⟩

/-- What both forms of `ST` do once their address is known. -/
theorem stores_of_exec {i : Instr} {s : State} {r : Reg} {ea : Word} {cost : Nat} (hwf : s.mem.wf = true)
    (h : exec i s = .next ((s.memWrite ea (s.reg r)).charge cost)) : Stores i s r ea cost := by
  refine ⟨_, h, fun hram => ?_, fun hram => ?_, fun a ha => ?_, memWrite_mem_wf hwf _ _, rfl⟩
  · rw [charge_peek, peek_memWrite hwf, if_pos ⟨hram, rfl⟩]
  · rw [charge_mem, memWrite_mem, storedMem_eq, if_neg hram]
  · rw [charge_peek, peek_memWrite hwf, if_neg fun h => ha h.2]

/-- Settles O56: both forms are one write at their address. -/
theorem storeResults : Obligations.StoreResults := fun s _ a16 hwf =>
  ⟨stores_of_exec hwf rfl, stores_of_exec hwf rfl, indexedEa_toNat s a16, rfl, rfl⟩

/-- Settles O25: `HLT` and the branches fork, but neither writes memory; no other meaning but those of `ST` does. -/
theorem onlyStoresWriteMemory : Obligations.OnlyStoresWriteMemory := by
  intro i s t h hst hstX
  have hmem : t.mem = s.mem := by
    cases i with
    | st r a16 => exact absurd rfl (hst r a16)
    | stX r a16 => exact absurd rfl (hstX r a16)
    | hlt => cases h; rw [charge_mem, setHalted_eq]
    | bra _ | beq _ | bne _ | bcs _ | bcc _ | bmi _ | bpl _ | bvs _ | bvc _ => cases h; rw [branch_eq]
    | _ => cases h; rfl
  exact ⟨hmem, fun a => by rw [State.peek, hmem, State.peek]⟩

/-- The accesses that the four memory forms make, and no other instruction, stand at the end of the record. -/
theorem exec_busLog {i : Instr} {s t : State} (h : exec i s = .next t) :
    ∃ made : List BusAccess, t.busLog = s.busLog ++ made ∧ made.map (fun x => (x.kind, x.addr)) = dataAccesses s i := by
  cases i with
  | ld _ _ | ldX _ _ | st _ _ | stX _ _ => cases h; exact ⟨_, rfl, rfl⟩
  | hlt => cases h; rw [charge_busLog, setHalted_eq]; exact ⟨[], (List.append_nil _).symm, rfl⟩
  | bra _ | beq _ | bne _ | bcs _ | bcc _ | bmi _ | bpl _ | bvs _ | bvc _ =>
    cases h; rw [branch_eq]; exact ⟨[], (List.append_nil _).symm, rfl⟩
  | _ => cases h; exact ⟨[], (List.append_nil _).symm, rfl⟩

/-- Settles O30: what an instruction adds to the record is what the table lists. -/
theorem dataAccessesAsListed : Obligations.DataAccessesAsListed := by
  intro i s t h
  obtain ⟨made, hlog, hmade⟩ := exec_busLog h
  rw [hlog, List.drop_left]
  exact ⟨List.prefix_append _ _, hmade⟩

end Sys2Proof.Machine
end

section
/-! SUPPORT. The fetches of `Decode()`: their addresses, their answers, and a store just before them. -/

namespace Sys2Proof.Machine

/-! ## A number of fetches -/

/-- The state after `n` fetches (30_encoding.md R94). -/
def State.afterFetches (s : State) : Nat → State
  | 0 => s
  | n + 1 => (s.afterFetches n).fetch.2

/-- The byte that the `k`-th of several fetches gives, counted from 0. -/
def State.fetchedByte (s : State) (k : Nat) : Byte := (s.afterFetches k).fetch.1

/-- The wait adjustment of the `k`-th access to come, 0 when none is scripted (70_reset_and_hazards.md R302; log 6). -/
def State.waitAt (s : State) (k : Nat) : Nat := (s.busAnswers[k]?.map BusAnswer.wait).getD 0

/-- The record of the `k`-th of several fetches. -/
def State.fetchAccess (s : State) (k : Nat) : BusAccess :=
  { kind := .read, addr := s.pc + BitVec.ofNat 16 k, value := s.fetchedByte k, wait := s.waitAt k }

theorem setAll_append (l : LineState) (cs ds : List LineCall) : l.setAll (cs ++ ds) = (l.setAll cs).setAll ds :=
  List.foldl_append

/-- The answer to the next access, as the list of answers gives it: its wait adjustment and its `set_line` calls. -/
theorem nextAnswer_wait (s : State) : s.nextAnswer.wait = s.waitAt 0 := by
  unfold State.nextAnswer State.waitAt
  cases s.busAnswers <;> rfl

theorem nextAnswer_lines (s : State) : s.nextAnswer.lines = (s.busAnswers.take 1).flatMap BusAnswer.lines := by
  unfold State.nextAnswer
  cases s.busAnswers <;> simp

/-- Each fetch takes one answer and goes to the next address. -/
theorem afterFetches_eq (s : State) (n : Nat) :
    s.afterFetches n =
      { s with
        pc := s.pc + BitVec.ofNat 16 n
        busLog := s.busLog ++ (List.range n).map s.fetchAccess
        waitAcc := s.waitAcc + ((List.range n).map s.waitAt).sum
        lines := s.lines.setAll ((s.busAnswers.take n).flatMap BusAnswer.lines)
        busAnswers := s.busAnswers.drop n } := by
  induction n with
  | zero => simp [State.afterFetches, LineState.setAll]
  | succ n ih =>
    have hwait : (s.afterFetches n).nextAnswer.wait = s.waitAt n := by
      rw [nextAnswer_wait, ih]; simp [State.waitAt]
    have hlines : (s.afterFetches n).nextAnswer.lines = ((s.busAnswers.drop n).take 1).flatMap BusAnswer.lines := by
      rw [nextAnswer_lines, ih]
    have hbyte : (s.afterFetches n).busByte (s.afterFetches n).pc = s.fetchedByte n := rfl
    have hpc : s.pc + BitVec.ofNat 16 n + 1#16 = s.pc + BitVec.ofNat 16 (n + 1) := by
      rw [BitVec.ofNat_add, BitVec.add_assoc]
    rw [State.afterFetches, fetch_snd, hbyte, State.access, hwait, hlines, ih]
    simp [State.setPc, hpc, List.range_succ, State.fetchAccess, List.take_add, setAll_append, Nat.add_assoc]

/-- A read sees map, configuration, memory, the answers to come and how many accesses were made. -/
theorem busByte_congr {s t : State} (a : Word) (hmap : s.map = t.map) (hcfg : s.cfg = t.cfg) (hmem : s.mem = t.mem)
    (hanswers : s.busAnswers = t.busAnswers) (hlog : s.busLog.length = t.busLog.length) : s.busByte a = t.busByte a := by
  simp only [State.busByte, State.peek, State.nextAnswer, hmap, hcfg, hmem, hanswers, hlog]

/-! ## `Decode()` -/

theorem lengthOf_cases (b0 : Byte) : lengthOf b0 = 1 ∨ lengthOf b0 = 2 ∨ lengthOf b0 = 3 := by
  unfold lengthOf
  split <;> [split; skip] <;> simp

/-- `Decode()` is as many fetches as the length of the first byte, in order; the bytes it does not fetch are 0. -/
theorem fetchInstr_eq (s : State) :
    s.fetchInstr =
      ({ ipc := s.pc
         b0 := s.fetchedByte 0
         b1 := if lengthOf (s.fetchedByte 0) < 2 then 0 else s.fetchedByte 1
         b2 := if lengthOf (s.fetchedByte 0) < 3 then 0 else s.fetchedByte 2 },
        s.afterFetches (lengthOf (s.fetchedByte 0))) := by
  have h0 : s.fetch.1 = s.fetchedByte 0 := rfl
  rcases fetchInstr_cases s with ⟨hlen, h⟩ | ⟨hlen, h⟩ | ⟨hlen, h⟩ <;> rw [h, ← h0, hlen] <;> rfl

/-- The bytes of the instruction at PC, by their place. -/
theorem fetchInstr_getElem? (s : State) {k : Nat} (hk : k < lengthOf s.fetchInstr.1.b0) :
    [s.fetchInstr.1.b0, s.fetchInstr.1.b1, s.fetchInstr.1.b2][k]? = some (s.fetchedByte k) := by
  have hlen := lengthOf_cases s.fetchInstr.1.b0
  match k with
  | 0 => rw [fetchInstr_eq]; rfl
  | 1 => rw [fetchInstr_eq] at hk ⊢; exact congrArg some (if_neg (Nat.not_lt.2 hk))
  | 2 => rw [fetchInstr_eq] at hk ⊢; exact congrArg some (if_neg (Nat.not_lt.2 hk))
  | k + 3 => omega

/-- All the bytes fetched, in order. -/
theorem fetchInstr_take (s : State) :
    [s.fetchInstr.1.b0, s.fetchInstr.1.b1, s.fetchInstr.1.b2].take (lengthOf s.fetchInstr.1.b0) =
      (List.range (lengthOf s.fetchInstr.1.b0)).map s.fetchedByte := by
  have hlen := lengthOf_cases s.fetchInstr.1.b0
  refine List.ext_getElem? fun k => ?_
  by_cases hk : k < lengthOf s.fetchInstr.1.b0
  · rw [List.getElem?_take_of_lt hk, fetchInstr_getElem? s hk]
    simp [hk]
  · rw [List.getElem?_eq_none (by simp; omega), List.getElem?_eq_none (by simp; omega)]

/-- The state `Decode()` leaves, its number of fetches read off the first byte. -/
theorem fetchInstr_snd (s : State) : s.fetchInstr.2 = s.afterFetches (lengthOf s.fetchInstr.1.b0) := by
  rw [fetchInstr_eq]

/-- The byte at place `k` is what the Address Space answers at PC + `k` after `k` accesses. -/
theorem fetchedByte_eq (s : State) {k n : Nat} (hk : k ≤ n) :
    s.fetchedByte k =
      State.busByte
        { s with
          busAnswers := s.busAnswers.drop k
          busLog := (s.afterFetches n).busLog.take (s.busLog.length + k) }
        (s.pc + BitVec.ofNat 16 k) := by
  rw [State.fetchedByte, fetch_fst, afterFetches_eq s k, afterFetches_eq s n]
  refine busByte_congr _ rfl rfl rfl rfl ?_
  simp [List.take_append, hk]

/-- Settles O6: `Decode()` is as many fetches as the length of the first byte. -/
theorem fetchReadsExactlyLength : Obligations.FetchReadsExactlyLength := by
  intro s
  dsimp only
  have hbytes (k : Nat) (hk : k < lengthOf s.fetchInstr.1.b0) := fetchInstr_getElem? s hk
  have htake := fetchInstr_take s
  have hsnd := fetchInstr_snd s
  have hb1 : lengthOf s.fetchInstr.1.b0 < 2 → s.fetchInstr.1.b1 = 0 := by
    rw [fetchInstr_eq]; exact fun h => if_pos h
  have hb2 : lengthOf s.fetchInstr.1.b0 < 3 → s.fetchInstr.1.b2 = 0 := by
    rw [fetchInstr_eq]; exact fun h => if_pos h
  have hipc : s.fetchInstr.1.ipc = s.pc := by rw [fetchInstr_eq]
  rw [hsnd]
  generalize lengthOf s.fetchInstr.1.b0 = n at *
  have hreads : (s.afterFetches n).busLog.drop s.busLog.length = (List.range n).map s.fetchAccess := by
    rw [afterFetches_eq, List.drop_left]
  refine ⟨hipc, hb1, hb2, fun k hk => ?_, ?_, ?_, ?_, ?_, ?_, ?_⟩
  · rw [hbytes k hk, fetchedByte_eq s hk.le]
  · rw [hreads, afterFetches_eq]
  · rw [hreads]; simp [State.fetchAccess, Function.comp_def]
  · rw [hreads]; simp [State.fetchAccess]
  · rw [hreads, htake]; simp [State.fetchAccess]
  · rw [hreads]; simp [State.fetchAccess, State.waitAt]
  · rw [hreads, afterFetches_eq]; simp [State.fetchAccess, Function.comp_def]

/-! ## A store just before -/

/-- Where the platform has memory, a byte of the instruction at PC is the one memory holds, whatever the other bytes are. -/
theorem fetchedByte_of_backed (s : State) {k : Nat} (h : s.backed (s.pc + BitVec.ofNat 16 k) = true) :
    s.fetchedByte k = s.peek (s.pc + BitVec.ofNat 16 k) := by
  rw [fetchedByte_eq s le_rfl]
  exact busByte_of_backed h

/-- Settles O45: RAM at the effective address holds the register after the store, and every fetch from RAM is what it
holds. -/
theorem storeSeenByNextFetch : Obligations.StoreSeenByNextFetch := by
  intro i s t r a16 ea hwf hform hram hexec
  obtain ⟨hpeek, hmap⟩ : t.peek ea = s.reg r ∧ t.map = s.map := by
    rcases hform with ⟨rfl, rfl⟩ | ⟨rfl, rfl⟩ <;> cases hexec <;> refine ⟨?_, rfl⟩ <;>
      exact (peek_memWrite hwf _ _ _).trans (if_pos ⟨hram, rfl⟩)
  have hbacked : t.backed ea = true := by rw [State.backed, hmap, hram]
  have hbyte {k : Nat} (hk : t.pc + BitVec.ofNat 16 k = ea) : t.fetchedByte k = s.reg r := by
    rw [fetchedByte_of_backed t (hk ▸ hbacked), hk, hpeek]
  rw [fetchInstr_eq]
  refine ⟨(busByte_of_backed hbacked).trans hpeek, fun hpc => hbyte (by simpa using hpc), fun hpc hlen => ?_,
    fun hpc hlen => ?_⟩
  · exact (if_neg (Nat.not_lt.2 hlen)).trans (hbyte hpc)
  · exact (if_neg (Nat.not_lt.2 hlen.ge)).trans (hbyte hpc)

end Sys2Proof.Machine
end

section
/-! SUPPORT. Time plays no part in results: each operation, from a state without cycle counts and wait adjustments, leaves what
it leaves from the state itself, but for time. -/

namespace Sys2Proof.Machine

/-! ## Operations on the state -/

theorem untimed_untimed (s : State) : s.untimed.untimed = s.untimed := by
  simp [State.untimed, Function.comp_def]

/-- To forget time in `t` before the comparison, which forgets it anyway. -/
theorem untimed_eq_of_untimed {t u : State} (h : u.untimed = t.untimed.untimed) : u.untimed = t.untimed :=
  h.trans (untimed_untimed t)

/-- An answer without its wait adjustment keeps its device byte and its `set_line` calls, and the record its length. -/
theorem nextAnswer_untimed (s : State) : s.untimed.nextAnswer = { s.nextAnswer with wait := 0 } := by
  unfold State.nextAnswer State.untimed
  cases s.busAnswers <;> simp

@[simp] theorem busByte_untimed (s : State) (a : Word) : s.untimed.busByte a = s.busByte a := by
  unfold State.busByte
  rw [nextAnswer_untimed]
  rfl

theorem access_untimed (s : State) (k : AccessKind) (a : Word) (v : Byte) :
    (s.untimed.access k a v).untimed = (s.access k a v).untimed := by
  rw [State.access, nextAnswer_untimed]
  simp [State.access, State.untimed, Function.comp_def]

theorem fetch_fst_untimed (s : State) : s.untimed.fetch.1 = s.fetch.1 := busByte_untimed s s.pc

theorem fetch_snd_untimed (s : State) : s.untimed.fetch.2.untimed = s.fetch.2.untimed := by
  rw [fetch_snd, busByte_untimed]
  exact congrArg (fun u => u.setPc (s.pc + 1)) (access_untimed s .read s.pc _)

theorem loadReg_untimed (s : State) (r : Reg) (ea : Word) : (s.untimed.loadReg r ea).untimed = (s.loadReg r ea).untimed := by
  rw [loadReg_eq, busByte_untimed]
  exact congrArg (fun u => u.setReg r (s.busByte ea)) (access_untimed s .read ea _)

theorem memWrite_untimed (s : State) (a : Word) (v : Byte) : (s.untimed.memWrite a v).untimed = (s.memWrite a v).untimed :=
  congrArg (fun u => { u with mem := s.storedMem a v }) (access_untimed s .write a v)

/-- What reads neither time nor answers and leaves records and answers alone does the same without time. -/
theorem setFlag_untimed (s : State) (fl : Flag) (b : Bool) : s.untimed.setFlag fl b = (s.setFlag fl b).untimed := rfl

theorem setZS_untimed (s : State) (r : Byte) : s.untimed.setZS r = (s.setZS r).untimed := by
  simp only [State.setZS, setFlag_untimed]

theorem setCZSV_untimed (s : State) (r : AluResult) : s.untimed.setCZSV r = (s.setCZSV r).untimed := by
  simp only [State.setCZSV, setZS_untimed, setFlag_untimed]

theorem aluAdd_untimed (s : State) (b : Byte) (cin : Bool) : s.untimed.aluAdd b cin = (s.aluAdd b cin).untimed :=
  setCZSV_untimed (s.setReg .a (add8 (s.reg .a) b cin).res) (add8 (s.reg .a) b cin)

theorem aluSub_untimed (s : State) (b : Byte) (bin : Bool) : s.untimed.aluSub b bin = (s.aluSub b bin).untimed :=
  setCZSV_untimed (s.setReg .a (sub8 (s.reg .a) b bin).res) (sub8 (s.reg .a) b bin)

theorem aluCmp_untimed (s : State) (b : Byte) : s.untimed.aluCmp b = (s.aluCmp b).untimed :=
  setCZSV_untimed s (sub8 (s.reg .a) b false)

theorem setHalted_untimed (s : State) (b : Bool) : s.untimed.setHalted b = (s.setHalted b).untimed := by
  rw [setHalted_eq, setHalted_eq]
  rfl

theorem dispatch_untimed (s : State) (k : Interrupt) : (s.untimed.dispatch k).untimed = (s.dispatch k).untimed := by
  rw [dispatch_eq_pushes, dispatch_eq_pushes, setHalted_eq, setHalted_eq, acknowledge_eq, acknowledge_eq]
  exact untimed_eq_of_untimed rfl

theorem performReset_untimed (s : State) : s.untimed.performReset.untimed = s.performReset.untimed := by
  simp only [State.performReset, setHalted_eq]
  exact untimed_eq_of_untimed rfl

theorem illegalOpcode_untimed (s : State) (ipc : Word) (b0 : Byte) :
    (s.untimed.illegalOpcode ipc b0).untimed = (s.illegalOpcode ipc b0).untimed := by
  cases h : s.cfg.illegalPolicy with
  | nopContinue =>
    rw [illegalOpcode_nop s ipc b0 h, illegalOpcode_nop s.untimed ipc b0 h]
    exact untimed_eq_of_untimed rfl
  | fatal =>
    rw [illegalOpcode_fatal s ipc b0 h, illegalOpcode_fatal s.untimed ipc b0 h]
    exact untimed_eq_of_untimed rfl

/-- A checkpoint decides by the lines, the flags and the shadow. -/
theorem checkpoint_untimed (s : State) : s.untimed.checkpoint.untimed = s.checkpoint.untimed := by
  have hirq : s.untimed.irqServiceable = s.irqServiceable := rfl
  have hlines : s.untimed.lines = s.lines := rfl
  unfold State.checkpoint
  rw [hirq, hlines]
  split
  · exact performReset_untimed s
  · split
    · exact dispatch_untimed s .nmi
    · split
      · exact dispatch_untimed s .irq
      · exact untimed_untimed s

/-! ## From states that differ in time only -/

/-- What an operation does the same without time, it does the same from states that differ in time only. -/
theorem untimed_congr {f : State → State} (hf : ∀ s, (f s.untimed).untimed = (f s).untimed) {s s' : State}
    (h : s'.untimed = s.untimed) : (f s').untimed = (f s).untimed :=
  calc (f s').untimed = (f s'.untimed).untimed := (hf s').symm
    _ = (f s.untimed).untimed := by rw [h]
    _ = (f s).untimed := hf s

theorem fetch_fst_congr {s s' : State} (h : s'.untimed = s.untimed) : s'.fetch.1 = s.fetch.1 := by
  rw [← fetch_fst_untimed s', h, fetch_fst_untimed s]

theorem pc_congr {s s' : State} (h : s'.untimed = s.untimed) : s'.pc = s.pc := by
  have : s'.untimed.pc = s.untimed.pc := by rw [h]
  exact this

/-- `Decode()` fetches the same bytes. -/
theorem fetchInstr_congr {s s' : State} (h : s'.untimed = s.untimed) :
    s'.fetchInstr.1 = s.fetchInstr.1 ∧ s'.fetchInstr.2.untimed = s.fetchInstr.2.untimed := by
  have hfetches (n : Nat) : (s'.afterFetches n).untimed = (s.afterFetches n).untimed := by
    induction n with
    | zero => exact h
    | succ n ih => exact untimed_congr (f := fun u => u.fetch.2) fetch_snd_untimed ih
  have hbyte : s'.fetchedByte = s.fetchedByte := funext fun k => fetch_fst_congr (hfetches k)
  rw [fetchInstr_eq, fetchInstr_eq, hbyte, pc_congr h]
  exact ⟨rfl, hfetches _⟩

/-! ## Outcomes -/

/-- From states that differ in time only, `F` answers next states that differ in time only. -/
def Timeless (F : State → Host.Outcome State Fault Refusal) : Prop :=
  ∀ s s' t : State, s'.untimed = s.untimed → F s = .next t → ∃ t', F s' = .next t' ∧ t'.untimed = t.untimed

/-- It is enough to compare with the state that has no time in it. -/
theorem timeless_of_untimed {F : State → Host.Outcome State Fault Refusal} (hnext : ∀ s, ∃ t, F s = .next t)
    (h : ∀ s t u, F s = .next t → F s.untimed = .next u → u.untimed = t.untimed) : Timeless F := by
  intro s s' t hs ht
  obtain ⟨t', ht'⟩ := hnext s'
  obtain ⟨u, hu⟩ := hnext s.untimed
  exact ⟨t', ht', (h s' t' u ht' (hs ▸ hu)).symm.trans (h s t u ht hu)⟩

theorem exec_untimed {i : Instr} {s t u : State} (ht : exec i s = .next t) (hu : exec i s.untimed = .next u) :
    u.untimed = t.untimed := by
  cases i with
  | ld r a16 => cases ht; cases hu; exact loadReg_untimed s r (absoluteEa a16)
  | ldX r a16 => cases ht; cases hu; exact loadReg_untimed s r (s.indexedEa a16)
  | st r a16 => cases ht; cases hu; exact memWrite_untimed s (absoluteEa a16) (s.reg r)
  | stX r a16 => cases ht; cases hu; exact memWrite_untimed s (s.indexedEa a16) (s.reg r)
  | hlt => cases ht; cases hu; rw [setHalted_untimed]; exact untimed_untimed (s.setHalted true)
  | bra _ | beq _ | bne _ | bcs _ | bcc _ | bmi _ | bpl _ | bvs _ | bvc _ =>
    cases ht; cases hu; rw [branch_eq, branch_eq]; exact untimed_eq_of_untimed rfl
  | addR _ | addI _ | adcR _ | adcI _ => cases ht; cases hu; rw [aluAdd_untimed]; exact untimed_eq_of_untimed rfl
  | subR _ | subI _ | sbcR _ | sbcI _ => cases ht; cases hu; rw [aluSub_untimed]; exact untimed_eq_of_untimed rfl
  | cmpR _ | cmpI _ => cases ht; cases hu; rw [aluCmp_untimed]; exact untimed_eq_of_untimed rfl
  | _ => cases ht; cases hu; exact untimed_eq_of_untimed rfl

theorem exec_timeless (i : Instr) : Timeless (exec i) :=
  timeless_of_untimed (exec_next i) fun _ _ _ => exec_untimed

theorem runFetched_timeless (d : Fetched) : Timeless (runFetched d) := by
  intro s s' t hs ht
  unfold runFetched at ht ⊢
  split at ht
  · cases ht
    exact ⟨_, rfl, untimed_congr (f := fun u => u.illegalOpcode d.ipc d.b0) (illegalOpcode_untimed · d.ipc d.b0) hs⟩
  · exact exec_timeless _ _ _ t (congrArg (fun u => { u with ishadow := false }) hs) ht

/-- The wait accumulator that an instruction zeroes at its start is time too. -/
theorem execOne_timeless : Timeless execOne := by
  intro s s' t hs ht
  have hzeroed : State.untimed { s' with waitAcc := 0 } = State.untimed { s with waitAcc := 0 } := hs
  obtain ⟨hbytes, hstate⟩ := fetchInstr_congr hzeroed
  unfold execOne at ht ⊢
  rw [hbytes]
  exact runFetched_timeless _ _ _ t hstate ht

theorem afterCheckpoint_timeless : Timeless afterCheckpoint := by
  intro s s' t hs ht
  have hhalted : s'.untimed.halted = s.untimed.halted := by rw [hs]
  unfold afterCheckpoint at ht ⊢
  split at ht
  · next h =>
    cases ht
    exact ⟨_, if_pos (hhalted.trans h), hs⟩
  · next h =>
    obtain ⟨t', ht', htime⟩ := execOne_timeless s s' t hs ht
    exact ⟨t', (if_neg fun h' => h (hhalted.symm.trans h')).trans ht', htime⟩

theorem iteration_timeless : Timeless iteration := fun _ _ t hs ht =>
  afterCheckpoint_timeless _ _ t (untimed_congr checkpoint_untimed hs) ht

/-- Settles O31: a state and the same without its time differ in time only. -/
theorem timingDoesNotAffectResults : Obligations.TimingDoesNotAffectResults := fun s t ht =>
  iteration_timeless s s.untimed t (untimed_untimed s) ht

end Sys2Proof.Machine
end

section
/-! SUPPORT. The decoder and the encoder: lengths, the dispatch table against the encoder, what one cut of a byte stream
answers, and the statements about the encoding. -/

namespace Sys2Proof

/-! ## Bytes and words -/

theorem eq_ofNat_of_toNat_eq {w : Nat} {v : BitVec w} {n : Nat} (h : v.toNat = n) : v = BitVec.ofNat w n := by
  rw [← h, BitVec.ofNat_toNat, BitVec.setWidth_eq]

@[simp] theorem wordOf_lowByte_highByte (w : Word) : wordOf (lowByte w) (highByte w) = w :=
  (BitVec.extractLsb'_append_extractLsb'_eq_extractLsb' rfl).trans BitVec.extractLsb'_eq_self

@[simp] theorem lowByte_wordOf (lo hi : Byte) : lowByte (wordOf lo hi) = lo := BitVec.extractLsb'_append_eq_right

@[simp] theorem highByte_wordOf (lo hi : Byte) : highByte (wordOf lo hi) = hi := BitVec.extractLsb'_append_eq_left

/-- A first byte is its upper six bits over the register that its lower two bits name (30_encoding.md R97, R99). -/
@[simp] theorem regByte_fields (b0 : Byte) : regByte (b0.extractLsb' 2 6) (Reg.ofField (b0.extractLsb' 0 2)) = b0 := by
  rw [regByte, Reg.field_ofField]
  exact (BitVec.extractLsb'_append_extractLsb'_eq_extractLsb' rfl).trans BitVec.extractLsb'_eq_self

/-- At most three bytes are their first three, those that are not there read as 0. -/
theorem eq_take_getD {l : List Byte} (h : l.length ≤ 3) : l = [l.getD 0 0, l.getD 1 0, l.getD 2 0].take l.length := by
  match l with
  | [] | [_] | [_, _] | [_, _, _] => rfl
  | _ :: _ :: _ :: _ :: _ => simp at h; omega

/-! ## Lengths -/

theorem lengthOf_eq_of_range (b0 : Byte) :
    lengthOf b0 = if b0.toNat < 0x80 then 1 else if b0.toNat < 0xC0 then 2 else 3 := by
  revert b0
  decide

theorem lengthOf_eq_of_topTwoBits (b0 : Byte) :
    lengthOf b0 =
      if (b0.extractLsb' 6 2).getLsbD 1 then (if (b0.extractLsb' 6 2).getLsbD 0 then 3 else 2) else 1 := by
  simp [lengthOf]

/-- The register field plays no part in the length. -/
theorem lengthOf_regByte (op6 : BitVec 6) (r : Reg) :
    lengthOf (regByte op6 r) = if op6.getLsbD 5 then (if op6.getLsbD 4 then 3 else 2) else 1 := by
  simp only [lengthOf, regByte, BitVec.getLsbD_append]
  rfl

theorem lengthOf_le_three (b0 : Byte) : lengthOf b0 ≤ 3 := by
  have := Machine.lengthOf_cases b0
  omega

/-- Every encoding has the length that its first byte announces (30_encoding.md R92, R97). -/
theorem encode_length (i : Instr) : (encode i).length = lengthOf ((encode i).getD 0 0) := by
  have hform : Laws.EncodingLength.Statement i := by
    open Laws.EncodingLength in
    exact i.casesOn nop hlt ret reti ei di clc sec movAR movRA addR adcR subR sbcR andR orR xorR cmpR adnR inc dec shl shr
      rol ror tfa taf ldi addI adcI subI sbcI andI orI xorI cmpI adnI bra beq bne bcs bcc bmi bpl bvs bvc ld st ldX stX
      jmp call
  cases h : encode i with
  | nil => cases i <;> cases h
  | cons b0 rest =>
    have hlen := hform b0 rest h
    rw [h] at hlen
    exact hlen

/-! ## The dispatch table -/

/-- The first byte of a six-bit opcode leads to that opcode's row: no row of R100 with eight fixed bits stands before it. -/
theorem lookup_regByte {op6 : BitVec 6} (r : Reg) (b1 b2 : Byte) (h : (lookupReg op6 r 0 0).isSome) :
    lookup (regByte op6 r) b1 b2 = lookupReg op6 r b1 b2 := by
  unfold lookupReg at h
  split at h <;> cases h
  all_goals
    next hop =>
      rw [eq_ofNat_of_toNat_eq hop]
      cases r <;> rfl

/-- The table finds the instruction under the bytes it is encoded in. -/
theorem lookup_encode (i : Instr) :
    lookup ((encode i).getD 0 0) ((encode i).getD 1 0) ((encode i).getD 2 0) = some i := by
  cases i with
  | movAR r | movRA r | addR r | adcR r | subR r | sbcR r | andR r | orR r | xorR r | cmpR r | adnR r | inc r | dec r =>
    exact lookup_regByte r 0 0 rfl
  | ldi r imm8 => exact lookup_regByte r imm8 0 rfl
  | ld r a16 | st r a16 | ldX r a16 | stX r a16 =>
    refine (lookup_regByte r (lowByte a16) (highByte a16) rfl).trans ?_
    simp [lookupReg]
  | jmp a16 | call a16 => simp [encode, lookup]
  | _ => rfl

/-- A row under a six-bit opcode holds the instruction that is encoded with this opcode (30_encoding.md R100). -/
theorem encode_of_lookupReg {op6 : BitVec 6} {r : Reg} {b1 b2 : Byte} {i : Instr} (h : lookupReg op6 r b1 b2 = some i) :
    encode i = [regByte op6 r, b1, b2].take (lengthOf (regByte op6 r)) := by
  rw [lengthOf_regByte]
  unfold lookupReg at h
  split at h <;> cases h
  all_goals
    next hop =>
      rw [eq_ofNat_of_toNat_eq hop]
      simp [encode]

/-- A row of the table holds the instruction that is encoded in its bytes. -/
theorem encode_of_lookup {b0 b1 b2 : Byte} {i : Instr} (h : lookup b0 b1 b2 = some i) :
    encode i = [b0, b1, b2].take (lengthOf b0) := by
  unfold lookup at h
  split at h
  case h_35 => simpa using encode_of_lookupReg h
  all_goals
    next hb =>
      cases h
      rw [eq_ofNat_of_toNat_eq hb]
      simp [encode, lengthOf]

/-- Whether a row is empty does not depend on the operand bytes (30_encoding.md R101). -/
theorem lookupReg_isNone_operands (op6 : BitVec 6) (r : Reg) (b1 b2 : Byte) :
    (lookupReg op6 r b1 b2).isNone = (lookupReg op6 r 0 0).isNone := by
  unfold lookupReg
  split <;> rfl

theorem lookup_isNone_operands (b0 b1 b2 : Byte) : (lookup b0 b1 b2).isNone = (lookup b0 0 0).isNone := by
  unfold lookup
  split
  case h_35 => exact lookupReg_isNone_operands _ _ b1 b2
  all_goals rfl

/-- The empty rows, read off the 256 rows. -/
theorem lookup_isNone_iff (b0 : Byte) :
    (lookup b0 0 0).isNone ↔
      (0x42 ≤ b0.toNat ∧ b0.toNat ≤ 0x7F) ∨ (0x8D ≤ b0.toNat ∧ b0.toNat ≤ 0x8F) ∨
        (0x99 ≤ b0.toNat ∧ b0.toNat ≤ 0xBF) ∨ 0xD2 ≤ b0.toNat := by
  revert b0
  decide

/-! ## One cut of a byte stream -/

theorem decodedOf_eq_instr_iff {b0 b1 b2 : Byte} {rest rest' : List Byte} {i : Instr} :
    decodedOf b0 b1 b2 rest = .instr i rest' ↔ lookup b0 b1 b2 = some i ∧ rest = rest' := by
  unfold decodedOf
  cases lookup b0 b1 b2 <;> simp

theorem decodedOf_eq_illegalOpcode_iff {b0 b1 b2 b0' : Byte} {rest : List Byte} :
    decodedOf b0 b1 b2 rest = .illegalOpcode b0' ↔ lookup b0 b1 b2 = none ∧ b0 = b0' := by
  unfold decodedOf
  cases lookup b0 b1 b2 <;> simp

/-- The decoder takes as many bytes as the first one announces; operand bytes it does not take count as 0. -/
theorem decode_take_append {b0 b1 b2 : Byte} (hb1 : lengthOf b0 < 2 → b1 = 0) (hb2 : lengthOf b0 < 3 → b2 = 0)
    (rest : List Byte) : decode ([b0, b1, b2].take (lengthOf b0) ++ rest) = decodedOf b0 b1 b2 rest := by
  rcases Machine.lengthOf_cases b0 with h | h | h
  · simp [decode, h, hb1, hb2]
  · simp [decode, h, hb2]
  · simp [decode, h]

/-- What decodes to an instruction is a row's bytes, and the bytes after them. -/
theorem bytes_of_decode_eq_instr {bytes : List Byte} {i : Instr} {rest : List Byte} (h : decode bytes = .instr i rest) :
    ∃ b0 b1 b2, lookup b0 b1 b2 = some i ∧ bytes = [b0, b1, b2].take (lengthOf b0) ++ rest := by
  unfold decode at h
  split at h
  · cases h
  · next b0 tail =>
    split at h
    case h_4 => cases h
    all_goals
      next hlen =>
        obtain ⟨hrow, rfl⟩ := decodedOf_eq_instr_iff.1 h
        exact ⟨b0, _, _, hrow, by simp [hlen]⟩

/-! ## The statements about the encoding -/

/-- Settles O1: the encoding is as long as its first byte announces, and the table finds the instruction under its bytes. -/
theorem decodeOfEncode : Obligations.DecodeOfEncode := by
  intro i rest
  have hlen := encode_length i
  have htake := eq_take_getD (hlen.le.trans (lengthOf_le_three _))
  rw [htake, hlen, decode_take_append, decodedOf_eq_instr_iff]
  · exact ⟨lookup_encode i, rfl⟩
  · exact fun h => List.getD_eq_default _ _ (by omega)
  · exact fun h => List.getD_eq_default _ _ (by omega)

/-- Settles O2: the table read backwards. -/
theorem encodeOfDecode : Obligations.EncodeOfDecode := by
  intro bytes i rest h
  obtain ⟨b0, b1, b2, hrow, rfl⟩ := bytes_of_decode_eq_instr h
  rw [encode_of_lookup hrow]

/-- Settles O4: the four values of bits 7:6 cut the first bytes into three ranges. -/
theorem lengthFromTopTwoBits : Obligations.LengthFromTopTwoBits :=
  ⟨lengthOf_eq_of_range, fun b0 b0' h => by rw [lengthOf_eq_of_topTwoBits, lengthOf_eq_of_topTwoBits b0', h]⟩

/-- A word whose bytes begin with an encoding decodes to its instruction. -/
theorem decodeTableWord_of_encode {nbits w : Nat} (i : Instr) (rest : List Byte) (h : tableBytes nbits w = encode i ++ rest) :
    decodeTableWord nbits w = some i := by
  rw [decodeTableWord, h, decodeOfEncode]

/-- Settles O5: each word is the encoding of its instruction, bytes of 0 after it; the last one begins with an empty row. -/
theorem tableWordsDecode : Obligations.TableWordsDecode :=
  ⟨decodeTableWord_of_encode _ [0, 0] rfl, decodeTableWord_of_encode _ [0, 0] rfl, decodeTableWord_of_encode _ [0, 0] rfl,
    decodeTableWord_of_encode _ [0] rfl, decodeTableWord_of_encode _ [0] rfl, decodeTableWord_of_encode _ [0] rfl,
    decodeTableWord_of_encode _ [] rfl, decodeTableWord_of_encode _ [] rfl, decodeTableWord_of_encode _ [] rfl, rfl⟩

end Sys2Proof
end

section
/-! SUPPORT. The single step of a running core: its fetches, then an instruction or the illegal-opcode handler. -/

namespace Sys2Proof.Machine

/-! ## After the fetches -/

theorem runFetched_of_none {d : Fetched} (h : lookup d.b0 d.b1 d.b2 = none) (s : State) :
    runFetched d s = .next (s.illegalOpcode d.ipc d.b0) := by
  rw [runFetched, h]

theorem runFetched_of_some {d : Fetched} {i : Instr} (h : lookup d.b0 d.b1 d.b2 = some i) (s : State) :
    runFetched d s = exec i { s with ishadow := false } := by
  rw [runFetched, h]

/-- Settles O3: the empty rows are the same for any operand bytes, their number is counted, and each goes to the handler. -/
theorem illegalFirstBytes : Obligations.IllegalFirstBytes := by
  refine ⟨fun b0 b1 b2 => ?_, fun b0 => ?_, by rfl, fun d s h => runFetched_of_none h s⟩
  · rw [← Option.isNone_iff_eq_none, lookup_isNone_operands, lookup_isNone_iff]
  · rw [lengthOf_eq_of_range]
    split_ifs <;> omega

/-- The decoder, given the bytes that `Decode()` fetched, asks the dispatch table for the same row as the Engine. -/
theorem decode_fetchInstr (s : State) :
    ∃ rest, decode [s.fetchInstr.1.b0, s.fetchInstr.1.b1, s.fetchInstr.1.b2] =
      decodedOf s.fetchInstr.1.b0 s.fetchInstr.1.b1 s.fetchInstr.1.b2 rest := by
  refine ⟨[s.fetchInstr.1.b0, s.fetchInstr.1.b1, s.fetchInstr.1.b2].drop (lengthOf s.fetchInstr.1.b0), ?_⟩
  rw [← decode_take_append, List.take_append_drop]
  · rw [fetchInstr_eq]; exact fun h => if_pos h
  · rw [fetchInstr_eq]; exact fun h => if_pos h

/-! ## The single step -/

/-- A running core's step is the fetches of one instruction and what follows them (40_execution_engine.md R133; log 7). -/
theorem step_running {s : State} (h : s.running = true) :
    step s = runFetched s.atFetch.fetchInstr.1 s.atFetch.fetchInstr.2 := by
  simp only [State.running, Bool.and_eq_true, Bool.not_eq_true', List.isEmpty_iff] at h
  obtain ⟨⟨⟨hscript, hfaulted⟩, hhalted⟩, hquiet⟩ := h
  have hcheck : State.checkpoint { s with icount := 1 } = { s with icount := 1 } := checkpoint_quiet hquiet
  rw [step_single hscript hfaulted, iteration, hcheck, afterCheckpoint]
  exact if_neg (by simp [hhalted])

/-- Settles O10: the Engine reaches the illegal-opcode handler, and the fetches write none of what the handler puts beside
PC and the cycle counter. -/
theorem stepHandlesIllegalOpcode : Obligations.StepHandlesIllegalOpcode := by
  intro s b0 hrun
  dsimp only
  intro hdecode
  obtain ⟨rest, hrow⟩ := decode_fetchInstr s.atFetch
  obtain ⟨hnone, -⟩ := decodedOf_eq_illegalOpcode_iff.1 (hrow ▸ hdecode)
  have hipc : s.atFetch.fetchInstr.1.ipc = s.pc := by rw [fetchInstr_eq]; rfl
  have hframe := (fetchInstr_snd s.atFetch).trans (afterFetches_eq s.atFetch _)
  have hcfg : s.atFetch.fetchInstr.2.cfg = s.cfg := by rw [hframe]; rfl
  have hlog : s.atFetch.fetchInstr.2.diagLog = s.diagLog := by rw [hframe]; rfl
  have hcount : s.atFetch.fetchInstr.2.icount = 1 := by rw [hframe]; rfl
  rw [step_running hrun, runFetched_of_none hnone, hipc, ← hlog]
  refine ⟨fun hpolicy => ?_, fun hpolicy => ?_⟩
  · rw [illegalOpcode_nop _ _ _ (hcfg ▸ hpolicy), hcount]
  · rw [illegalOpcode_fatal _ _ _ (hcfg ▸ hpolicy)]

/-! ## An instruction in memory -/

/-- The bytes of `i` stand at PC, where the platform has memory. -/
def State.holdsAtPc (s : State) (i : Instr) : Prop :=
  ∀ k : Nat, k < (encode i).length →
    s.backed (s.pc + BitVec.ofNat 16 k) ∧ (encode i)[k]? = some (s.peek (s.pc + BitVec.ofNat 16 k))

theorem State.holdsAtPc.fetchedByte {s : State} {i : Instr} (h : s.holdsAtPc i) {k : Nat} (hk : k < (encode i).length) :
    s.fetchedByte k = (encode i).getD k 0 := by
  obtain ⟨hbacked, hbyte⟩ := h k hk
  rw [fetchedByte_of_backed s hbacked, List.getD_eq_getElem?_getD, hbyte, Option.getD_some]

/-- `Decode()` fetches the encoding that stands at PC. -/
theorem State.holdsAtPc.fetchInstr {s : State} {i : Instr} (h : s.holdsAtPc i) :
    s.fetchInstr =
      ({ ipc := s.pc, b0 := (encode i).getD 0 0, b1 := (encode i).getD 1 0, b2 := (encode i).getD 2 0 },
        s.afterFetches (encode i).length) := by
  have hlen := encode_length i
  have hpos := lengthOf_cases ((encode i).getD 0 0)
  have hb0 := h.fetchedByte (k := 0) (by omega)
  have hoperand (k : Nat) : (if (encode i).length < k + 1 then 0 else s.fetchedByte k) = (encode i).getD k 0 := by
    split
    · exact (List.getD_eq_default _ _ (by omega)).symm
    · exact h.fetchedByte (by omega)
  rw [fetchInstr_eq, hb0, ← hlen, hoperand, hoperand]

/-- With nothing scripted, fetches from memory move PC and record what memory holds. -/
theorem afterFetches_of_unscripted {s : State} (hanswers : s.busAnswers = []) {n : Nat}
    (hbacked : ∀ k < n, s.backed (s.pc + BitVec.ofNat 16 k) = true) :
    s.afterFetches n =
      { s with
        pc := s.pc + BitVec.ofNat 16 n
        busLog := s.busLog ++ (List.range n).map (fun k =>
          { kind := .read, addr := s.pc + BitVec.ofNat 16 k, value := s.peek (s.pc + BitVec.ofNat 16 k), wait := 0 }) } := by
  have hwait : s.waitAt = fun _ => 0 := by simp [funext_iff, State.waitAt, hanswers]
  have hrecords : (List.range n).map s.fetchAccess = (List.range n).map (fun k =>
      { kind := .read, addr := s.pc + BitVec.ofNat 16 k, value := s.peek (s.pc + BitVec.ofNat 16 k), wait := 0 }) :=
    List.map_congr_left fun k hk => by
      rw [State.fetchAccess, hwait, fetchedByte_of_backed s (hbacked k (List.mem_range.1 hk))]
  rw [afterFetches_eq, hrecords, hwait]
  simp [hanswers, LineState.setAll]

/-- Settles O9: the bytes fetched are the encoding, under which the table finds `i`. -/
theorem stepRunsInstructionFromMemory : Obligations.StepRunsInstructionFromMemory := by
  intro s i hrun hanswers hbytes
  have hholds : s.atFetch.holdsAtPc i := hbytes
  have hstate := afterFetches_of_unscripted (s := s.atFetch) hanswers fun k hk => (hholds k hk).1
  rw [step_running hrun, hholds.fetchInstr, runFetched_of_some (lookup_encode i), hstate]
  rfl

end Sys2Proof.Machine
end

section
/-! SUPPORT. Cycles: what an instruction, one `ExecOne()` and one iteration are charged, and that what they do does not depend on
the cycle counter. -/

namespace Sys2Proof.Machine

/-! ## What an instruction is charged -/

/-- Base cost and wait adjustments, for a state whose record grew by `made`. -/
theorem charged_of_made {s t : State} {cost : Nat} (made : List BusAccess) (hlog : t.busLog = s.busLog ++ made)
    (hwait : t.waitAcc = s.waitAcc + (made.map BusAccess.wait).sum) (hcount : t.icount = s.icount - cost - t.waitAcc) :
    t.waitAcc = s.waitAcc + waitsBetween s t ∧ t.icount = s.icount - cost - t.waitAcc := by
  rw [waitsBetween, hlog, List.drop_left]
  exact ⟨hwait, hcount⟩

/-- A branch makes no access and is charged by whether it is taken. -/
theorem branch_charged (s : State) (cond : Bool) (rel8 : Byte) {cost : Nat} (hcost : cost = if cond then 3 else 2) :
    (s.branch cond rel8).waitAcc = s.waitAcc + waitsBetween s (s.branch cond rel8) ∧
      (s.branch cond rel8).icount = s.icount - cost - (s.branch cond rel8).waitAcc := by
  rw [branch_eq, hcost]
  exact charged_of_made [] (List.append_nil _).symm rfl rfl

/-- Settles O29: the four memory forms add their one access to the record, the branches cost by their condition, and every
other instruction makes no access and has one cost. -/
theorem cyclesCharged : Obligations.CyclesCharged := by
  intro i s t h
  cases i with
  | ld _ _ | ldX _ _ | st _ _ | stX _ _ => cases h; exact charged_of_made [_] rfl rfl rfl
  | hlt => cases h; rw [setHalted_eq]; exact charged_of_made [] (List.append_nil _).symm rfl rfl
  | bra _ => cases h; exact branch_charged s _ _ rfl
  | beq _ | bcs _ | bmi _ | bvs _ => cases h; exact branch_charged s _ _ rfl
  | bne _ | bcc _ | bpl _ | bvc _ => cases h; exact branch_charged s _ _ (by grind [baseCycles])
  | _ => cases h; exact charged_of_made [] (List.append_nil _).symm rfl rfl

theorem baseCycles_bounds (s : State) (i : Instr) : 1 ≤ baseCycles s i ∧ baseCycles s i ≤ 5 := by
  cases i with
  | beq _ | bne _ | bcs _ | bcc _ | bmi _ | bpl _ | bvs _ | bvc _ => simp only [baseCycles]; split <;> decide
  | _ => simp only [baseCycles]; decide

/-- A cost depends on the state by the flags alone. -/
theorem baseCycles_congr {s t : State} (h : t.f = s.f) (i : Instr) : baseCycles t i = baseCycles s i := by
  have hflag : t.flag = s.flag := by funext q; rw [State.flag, State.readF, h, State.flag, State.readF]
  cases i with
  | beq _ | bne _ | bcs _ | bcc _ | bmi _ | bpl _ | bvs _ | bvc _ => simp only [baseCycles, hflag]
  | _ => rfl

/-! ## What `ExecOne()` is charged -/

/-- The waits of two stretches add up. -/
theorem waitsBetween_add {s t u : State} (hst : s.Extends t) (htu : t.Extends u) :
    waitsBetween s u = waitsBetween s t + waitsBetween t u := by
  obtain ⟨m, hm⟩ := hst.busLog
  obtain ⟨n, hn⟩ := htu.busLog
  simp [waitsBetween, ← hn, ← hm]

/-- The fetches put their wait adjustments into the accumulator and charge nothing yet (40_execution_engine.md R135). -/
theorem fetchInstr_waitAcc (s : State) : s.fetchInstr.2.waitAcc = s.waitAcc + waitsBetween s s.fetchInstr.2 := by
  rw [fetchInstr_snd, afterFetches_eq]
  simp [waitsBetween, State.fetchAccess, Function.comp_def]

theorem fetchInstr_icount (s : State) : s.fetchInstr.2.icount = s.icount := by
  rw [fetchInstr_snd, afterFetches_eq]

theorem fetchInstr_f (s : State) : s.fetchInstr.2.f = s.f := by
  rw [fetchInstr_snd, afterFetches_eq]

theorem fetchInstr_cfg (s : State) : s.fetchInstr.2.cfg = s.cfg := by
  rw [fetchInstr_snd, afterFetches_eq]

/-- The illegal-opcode handler makes no access, under either policy. -/
theorem illegalOpcode_waitAcc (s : State) (ipc : Word) (b0 : Byte) :
    (s.illegalOpcode ipc b0).waitAcc = s.waitAcc + waitsBetween s (s.illegalOpcode ipc b0) := by
  cases h : s.cfg.illegalPolicy with
  | nopContinue => rw [illegalOpcode_nop s ipc b0 h]; simp [waitsBetween]
  | fatal => rw [illegalOpcode_fatal s ipc b0 h]; simp [waitsBetween]

theorem runFetched_waitAcc {d : Fetched} {s t : State} (h : runFetched d s = .next t) :
    t.waitAcc = s.waitAcc + waitsBetween s t := by
  cases hrow : lookup d.b0 d.b1 d.b2 with
  | none => rw [runFetched_of_none hrow] at h; cases h; exact illegalOpcode_waitAcc s _ _
  | some i => rw [runFetched_of_some hrow] at h; exact (cyclesCharged i _ t h).1

/-- After one `ExecOne()` the accumulator holds the wait adjustments of all its accesses. -/
theorem execOne_waitAcc {s t : State} (h : execOne s = .next t) : t.waitAcc = waitsBetween s t := by
  have hadd := waitsBetween_add (fetchInstr_extends { s with waitAcc := 0 }) (runFetched_extends h)
  rw [runFetched_waitAcc h, fetchInstr_waitAcc, Nat.zero_add, ← hadd]
  rfl

/-- One `ExecOne()` is charged 1 to 5 cycles and its wait adjustments, or nothing when it faults the core. -/
theorem execOne_charged {s t : State} (h : execOne s = .next t) :
    t.icount = s.icount - instructionCycles s t ∧
      (t.faulted = true ∧ instructionCycles s t = 0 ∨
        ∃ cost : Nat, 1 ≤ cost ∧ cost ≤ 5 ∧ instructionCycles s t = cost + t.waitAcc) := by
  have hcount := fetchInstr_icount { s with waitAcc := 0 }
  have hflags := fetchInstr_f { s with waitAcc := 0 }
  have hpolicy := congrArg Config.illegalPolicy (fetchInstr_cfg { s with waitAcc := 0 })
  rw [instructionCycles, ← execOne_waitAcc h]
  rw [execOne] at h
  generalize State.fetchInstr { s with waitAcc := 0 } = fetched at *
  cases hrow : lookup fetched.1.b0 fetched.1.b1 fetched.1.b2 with
  | some i =>
    rw [runFetched_of_some hrow] at h
    have hcharge : t.icount = s.icount - baseCycles s i - t.waitAcc := by
      have hbase : baseCycles { fetched.2 with ishadow := false } i = baseCycles s i := baseCycles_congr hflags i
      rw [← hbase, ← show fetched.2.icount = s.icount from hcount]
      exact (cyclesCharged i _ t h).2
    obtain ⟨hpos, hle⟩ := baseCycles_bounds s i
    exact ⟨hcharge.trans (Int.sub_sub _ _ _), .inr ⟨baseCycles s i, hpos, hle, rfl⟩⟩
  | none =>
    rw [runFetched_of_none hrow] at h
    cases h
    cases hs : s.cfg.illegalPolicy with
    | nopContinue =>
      rw [illegalOpcode_nop _ _ _ (hpolicy.trans hs), hcount]
      exact ⟨Int.sub_sub _ _ _, .inr ⟨2, by decide, by decide, rfl⟩⟩
    | fatal =>
      rw [illegalOpcode_fatal _ _ _ (hpolicy.trans hs), hcount]
      exact ⟨(Int.sub_zero _).symm, .inl ⟨rfl, rfl⟩⟩

/-! ## What an iteration is charged -/

/-- The cycles of a checkpoint: 6 for a dispatch, none for a reset. -/
def State.entryCycles (s : State) : Int :=
  if s.lines.resetPending then 0 else if s.lines.nmiPending || s.irqServiceable then 6 else 0

theorem iterationCycles_eq (s t : State) :
    iterationCycles s t =
      if s.checkpoint.halted then s.icount else s.entryCycles + instructionCycles s.checkpoint t := rfl

theorem entryCycles_bounds (s : State) : 0 ≤ s.entryCycles ∧ s.entryCycles ≤ 6 := by
  unfold State.entryCycles
  split_ifs <;> decide

/-- A checkpoint charges its cycles, and one that leaves the core halted has served nothing. -/
theorem checkpoint_charged (s : State) :
    s.checkpoint.icount = s.icount - s.entryCycles ∧ (s.checkpoint.halted = true → s.checkpoint = s) := by
  unfold State.entryCycles
  rcases checkpoint_cases s with ⟨hreset, h⟩ | ⟨hreset, hnmi, h⟩ | ⟨hreset, hnmi, hirq, h⟩ | ⟨hreset, hnmi, hirq, h⟩
  · rw [h, performReset_icount, performReset_halted]; simp [hreset]
  · rw [h, dispatch_icount, dispatch_halted]; simp [hreset, hnmi]
  · rw [h, dispatch_icount, dispatch_halted]; simp [hreset, hirq]
  · rw [h]; simp [hreset, hnmi, hirq]

/-- An iteration either idles a halted core, or is its checkpoint and one `ExecOne()`. -/
theorem iteration_cases {s t : State} (h : iteration s = .next t) :
    (s.checkpoint.halted = true ∧ t = { s with icount := 0 }) ∨
    (s.checkpoint.halted = false ∧ execOne s.checkpoint = .next t) := by
  unfold iteration afterCheckpoint at h
  split at h
  · next hhalted =>
    cases h
    exact .inl ⟨hhalted, by rw [(checkpoint_charged s).2 hhalted]⟩
  · next hhalted => exact .inr ⟨by simpa using hhalted, h⟩

/-- An iteration takes from the counter what the accounting of R138 lists for it. -/
theorem iteration_icount {s t : State} (h : iteration s = .next t) : t.icount = s.icount - iterationCycles s t := by
  rw [iterationCycles_eq]
  rcases iteration_cases h with ⟨hhalted, rfl⟩ | ⟨hhalted, hexec⟩
  · simp [hhalted]
  · simp only [hhalted, Bool.false_eq_true, if_false]
    obtain ⟨hcharge, _⟩ := execOne_charged hexec
    obtain ⟨hentry, _⟩ := checkpoint_charged s
    omega

/-- An iteration with cycles left takes at least one of them, unless it faults the core. -/
theorem iteration_progress {s t : State} (hpos : 0 < s.icount) (h : iteration s = .next t) :
    t.faulted = true ∨ t.icount < s.icount := by
  rcases iteration_cases h with ⟨_, rfl⟩ | ⟨_, hexec⟩
  · exact .inr hpos
  · obtain ⟨hentry, _⟩ := checkpoint_charged s
    obtain ⟨hentryPos, _⟩ := entryCycles_bounds s
    obtain ⟨hcharge, ⟨hfaulted, _⟩ | ⟨cost, hcost, _, hcycles⟩⟩ := execOne_charged hexec
    · exact .inl hfaulted
    · exact .inr (by omega)

/-- An iteration with cycles left takes at most 11 of its own, 6 to enter an interrupt and 5 for the longest instruction. -/
theorem iteration_overrun {s t : State} (hpos : 0 < s.icount) (h : iteration s = .next t) :
    -10 - (t.waitAcc : Int) ≤ t.icount := by
  rcases iteration_cases h with ⟨_, rfl⟩ | ⟨_, hexec⟩
  · show -10 - (s.waitAcc : Int) ≤ 0
    omega
  · obtain ⟨hentry, _⟩ := checkpoint_charged s
    obtain ⟨_, hentryLe⟩ := entryCycles_bounds s
    obtain ⟨hcharge, ⟨_, hcycles⟩ | ⟨cost, _, hcost, hcycles⟩⟩ := execOne_charged hexec <;> omega

/-! ## The cycle counter plays no part -/

/-- The state with another cycle counter. -/
def State.withCount (s : State) (n : Int) : State := { s with icount := n }

/-- States that agree but for the counter are each other's with another counter. -/
theorem eq_withCount {t u : State} (h : u.withCount 0 = t.withCount 0) : u = t.withCount u.icount := by
  show (u.withCount 0).withCount u.icount = (t.withCount 0).withCount u.icount
  rw [h]

/-- From the same state with another cycle counter, `F` answers the same next state with another cycle counter. -/
def CountFree (F : State → Host.Outcome State Fault Refusal) : Prop :=
  ∀ (s t : State) (n : Int), F s = .next t → ∃ m, F (s.withCount n) = .next (t.withCount m)

/-- What does not read the counter and leaves it alone does the same with another one. -/
theorem setFlag_withCount (s : State) (fl : Flag) (b : Bool) (n : Int) :
    (s.withCount n).setFlag fl b = (s.setFlag fl b).withCount n := rfl

theorem setZS_withCount (s : State) (r : Byte) (n : Int) : (s.withCount n).setZS r = (s.setZS r).withCount n := by
  simp only [State.setZS, setFlag_withCount]

theorem setCZSV_withCount (s : State) (r : AluResult) (n : Int) :
    (s.withCount n).setCZSV r = (s.setCZSV r).withCount n := by
  simp only [State.setCZSV, setZS_withCount, setFlag_withCount]

theorem aluAdd_withCount (s : State) (b : Byte) (cin : Bool) (n : Int) :
    (s.withCount n).aluAdd b cin = (s.aluAdd b cin).withCount n :=
  setCZSV_withCount (s.setReg .a (add8 (s.reg .a) b cin).res) (add8 (s.reg .a) b cin) n

theorem aluSub_withCount (s : State) (b : Byte) (bin : Bool) (n : Int) :
    (s.withCount n).aluSub b bin = (s.aluSub b bin).withCount n :=
  setCZSV_withCount (s.setReg .a (sub8 (s.reg .a) b bin).res) (sub8 (s.reg .a) b bin) n

theorem aluCmp_withCount (s : State) (b : Byte) (n : Int) : (s.withCount n).aluCmp b = (s.aluCmp b).withCount n :=
  setCZSV_withCount s (sub8 (s.reg .a) b false) n

theorem charge_withCount (s : State) (n : Int) (cost : Nat) :
    ((s.withCount n).charge cost).withCount 0 = (s.charge cost).withCount 0 := rfl

/-- A meaning reads the counter only to charge it. -/
theorem exec_withCount {i : Instr} {s t u : State} {n : Int} (ht : exec i s = .next t)
    (hu : exec i (s.withCount n) = .next u) : u.withCount 0 = t.withCount 0 := by
  cases i with
  | hlt => cases ht; cases hu; rw [setHalted_eq, setHalted_eq]; rfl
  | bra _ | beq _ | bne _ | bcs _ | bcc _ | bmi _ | bpl _ | bvs _ | bvc _ =>
    cases ht; cases hu; rw [branch_eq, branch_eq]; rfl
  | addR _ | addI _ | adcR _ | adcI _ => cases ht; cases hu; rw [aluAdd_withCount]; exact charge_withCount _ n _
  | subR _ | subI _ | sbcR _ | sbcI _ => cases ht; cases hu; rw [aluSub_withCount]; exact charge_withCount _ n _
  | cmpR _ | cmpI _ => cases ht; cases hu; rw [aluCmp_withCount]; exact charge_withCount _ n _
  | _ => cases ht; cases hu; rfl

theorem exec_countFree (i : Instr) : CountFree (exec i) := by
  intro s t n h
  obtain ⟨u, hu⟩ := exec_next i (s.withCount n)
  exact ⟨u.icount, hu.trans (congrArg Host.Outcome.next (eq_withCount (exec_withCount h hu)))⟩

theorem illegalOpcode_withCount (s : State) (n : Int) (ipc : Word) (b0 : Byte) :
    ((s.withCount n).illegalOpcode ipc b0).withCount 0 = (s.illegalOpcode ipc b0).withCount 0 := by
  cases h : s.cfg.illegalPolicy with
  | nopContinue => rw [illegalOpcode_nop s ipc b0 h, illegalOpcode_nop (s.withCount n) ipc b0 h]; rfl
  | fatal => rw [illegalOpcode_fatal s ipc b0 h, illegalOpcode_fatal (s.withCount n) ipc b0 h]; rfl

theorem runFetched_countFree (d : Fetched) : CountFree (runFetched d) := by
  intro s t n h
  cases hrow : lookup d.b0 d.b1 d.b2 with
  | none =>
    rw [runFetched_of_none hrow] at h ⊢
    cases h
    exact ⟨_, congrArg Host.Outcome.next (eq_withCount (illegalOpcode_withCount s n d.ipc d.b0))⟩
  | some i =>
    rw [runFetched_of_some hrow] at h ⊢
    exact exec_countFree i _ t n h

theorem afterFetches_withCount (s : State) (n : Int) (k : Nat) :
    (s.withCount n).afterFetches k = (s.afterFetches k).withCount n := by
  induction k with
  | zero => rfl
  | succ k ih => rw [State.afterFetches, ih]; rfl

/-- `Decode()` neither reads the counter nor writes it. -/
theorem fetchInstr_withCount (s : State) (n : Int) :
    (s.withCount n).fetchInstr = (s.fetchInstr.1, s.fetchInstr.2.withCount n) := by
  have hbyte : (s.withCount n).fetchedByte = s.fetchedByte := by
    funext k; rw [State.fetchedByte, afterFetches_withCount]; rfl
  rw [fetchInstr_eq, fetchInstr_eq, hbyte, afterFetches_withCount]
  rfl

theorem execOne_countFree : CountFree execOne := by
  intro s t n h
  obtain ⟨m, hm⟩ := runFetched_countFree _ _ t n h
  refine ⟨m, Eq.trans ?_ hm⟩
  have hfetch := fetchInstr_withCount { s with waitAcc := 0 } n
  show runFetched (State.withCount { s with waitAcc := 0 } n).fetchInstr.1
    (State.withCount { s with waitAcc := 0 } n).fetchInstr.2 = _
  rw [hfetch]

theorem dispatch_withCount (s : State) (k : Interrupt) (n : Int) :
    ((s.withCount n).dispatch k).withCount 0 = (s.dispatch k).withCount 0 := by
  rw [dispatch_eq_pushes, dispatch_eq_pushes, setHalted_eq, setHalted_eq, acknowledge_eq, acknowledge_eq]
  rfl

theorem performReset_withCount (s : State) (n : Int) :
    (s.withCount n).performReset.withCount 0 = s.performReset.withCount 0 := by
  simp only [State.performReset, setHalted_eq]
  rfl

/-- What a checkpoint serves depends on the lines, the flags and the shadow, and not on the counter. -/
theorem checkpoint_withCount (s : State) (n : Int) :
    (s.withCount n).checkpoint.withCount 0 = s.checkpoint.withCount 0 := by
  have hirq : (s.withCount n).irqServiceable = s.irqServiceable := rfl
  have hlines : (s.withCount n).lines = s.lines := rfl
  unfold State.checkpoint
  rw [hirq, hlines]
  split
  · exact performReset_withCount s n
  · split
    · exact dispatch_withCount s .nmi n
    · split
      · exact dispatch_withCount s .irq n
      · rfl

theorem afterCheckpoint_countFree : CountFree afterCheckpoint := by
  intro s t n h
  unfold afterCheckpoint at h ⊢
  split at h
  · next hhalted => cases h; exact ⟨0, if_pos hhalted⟩
  · next hhalted =>
    obtain ⟨m, hm⟩ := execOne_countFree s t n h
    exact ⟨m, (if_neg hhalted).trans hm⟩

theorem iteration_countFree : CountFree iteration := by
  intro s t n h
  rw [iteration, eq_withCount (checkpoint_withCount s n)]
  exact afterCheckpoint_countFree _ t _ h

end Sys2Proof.Machine
end

section
/-! SUPPORT. The checkpoint, the single step and `execute_run`: what a step runs, and what the loop consumes. -/

namespace Sys2Proof.Machine

/-! ## The checkpoint and the step -/

theorem checkpoint_of_irqServiceable {s : State} (hreset : s.lines.resetPending = false)
    (hnmi : s.lines.nmiPending = false) (hirq : s.irqServiceable = true) : s.checkpoint = s.dispatch .irq := by
  rw [State.checkpoint, if_neg (by simp [hreset]), if_neg (by simp [hnmi]), if_pos hirq]

/-- Settles O12: the guards of each case decide the tests of the checkpoint in its order. -/
theorem checkpointPriority : Obligations.CheckpointPriority := by
  intro s
  refine ⟨fun hreset => ?_, fun hreset hnmi => ?_, fun hreset hnmi hirq hi hshadow => ?_, fun hreset hnmi hnone => ?_⟩
  · rw [State.checkpoint, if_pos hreset]
  · rw [State.checkpoint, if_neg (by simp [hreset]), if_pos hnmi]
  · exact checkpoint_of_irqServiceable hreset hnmi (by simp [State.irqServiceable, hirq, hi, hshadow])
  · have hserviceable : s.irqServiceable = false := by
      rcases hnone with h | h | h <;> simp [State.irqServiceable, h]
    exact checkpoint_quiet (by simp [State.quiet, hreset, hnmi, hserviceable])

/-- A core that its checkpoint leaves running goes on with one `ExecOne()`. -/
theorem iteration_of_not_halted {s t : State} (hcheck : s.checkpoint = t) (h : t.halted = false) :
    iteration s = execOne t := by
  rw [iteration, hcheck, afterCheckpoint, if_neg (by simp [h])]

/-- Settles O13: the step is one iteration, whose checkpoint serves the request and leaves the core running at the vector. -/
theorem stepServesRequestFirst : Obligations.StepServesRequestFirst := by
  intro s hscript hfaulted s1
  obtain ⟨hreset, hnmi, _, _⟩ := checkpointPriority s1
  rw [step_single hscript hfaulted]
  refine ⟨fun h => ⟨?_, performReset_pc s1⟩, fun h h' => ⟨?_, dispatch_pc s1 .nmi⟩,
    fun h h' hirq => ⟨?_, dispatch_pc s1 .irq⟩⟩
  · exact iteration_of_not_halted (hreset h) (performReset_halted s1)
  · exact iteration_of_not_halted (hnmi h h') (dispatch_halted s1 .nmi)
  · exact iteration_of_not_halted (checkpoint_of_irqServiceable h h' hirq) (dispatch_halted s1 .irq)

/-- Settles O8: the dispatch table finds, under the bytes fetched, the instruction they decode to. -/
theorem stepRunsDecodedInstruction : Obligations.StepRunsDecodedInstruction := by
  intro s i rest hrun
  dsimp only
  intro hdecode
  obtain ⟨_, hrow⟩ := decode_fetchInstr s.atFetch
  obtain ⟨hsome, _⟩ := decodedOf_eq_instr_iff.1 (hrow ▸ hdecode)
  rw [step_running hrun, runFetched_of_some hsome]

/-! ## The loop -/

theorem runLoop_of_stop {s : State} (h : s.icount ≤ 0 ∨ s.faulted = true) (fuel : Nat) : runLoop fuel s = .next s := by
  cases fuel with
  | zero => rfl
  | succ fuel => rw [runLoop, if_pos h]

/-- A fuel of the cycles left is enough: the loop ends with none left, or faulted (log 21). -/
theorem runLoop_consumes {fuel : Nat} {s t : State} (hfuel : s.icount ≤ fuel) (h : runLoop fuel s = .next t)
    (ht : t.faulted = false) : t.icount ≤ 0 := by
  induction fuel generalizing s with
  | zero => cases h; exact hfuel
  | succ fuel ih =>
    rcases runLoop_succ fuel s with ⟨hdone, hstop⟩ | ⟨⟨hpos, _⟩, u, hu, hgo⟩
    · rw [hstop] at h
      cases h
      exact hdone.resolve_right (by simp [ht])
    · rw [hgo] at h
      rcases iteration_progress hpos hu with hfaulted | hless
      · rw [runLoop_of_stop (.inr hfaulted)] at h
        cases h
        exact absurd hfaulted (by simp [ht])
      · exact ih (by omega) h

/-- Settles O32: the loop is given the budget as its fuel. -/
theorem runConsumesBudget : Obligations.RunConsumesBudget := by
  intro budget s hpos
  obtain ⟨n, t, h⟩ := executeRun_next budget s
  refine ⟨n, t, h, fun ht => ?_⟩
  rcases executeRun_cases h with ⟨hfaulted, _, rfl⟩ | ⟨_, hle, _⟩ | ⟨_, _, rfl, hloop⟩
  · exact absurd hfaulted (by simp [ht])
  · omega
  · have := runLoop_consumes (Int.self_le_toNat budget) hloop ht
    omega

/-- The loop stops before the iteration that would begin with no cycles left. -/
theorem runLoop_overrun {fuel : Nat} {s t : State} (hs : -10 - (s.waitAcc : Int) ≤ s.icount)
    (h : runLoop fuel s = .next t) : -10 - (t.waitAcc : Int) ≤ t.icount := by
  induction fuel generalizing s with
  | zero => cases h; exact hs
  | succ fuel ih =>
    rcases runLoop_succ fuel s with ⟨_, hstop⟩ | ⟨⟨hpos, _⟩, u, hu, hgo⟩
    · rw [hstop] at h; cases h; exact hs
    · exact ih (iteration_overrun hpos hu) (hgo ▸ h)

/-- Settles O33: the loop begins with a positive budget, and each iteration with cycles left. -/
theorem runOverrunBounded : Obligations.RunOverrunBounded := by
  intro budget n s t hpos h
  rcases executeRun_cases h with ⟨_, rfl, _⟩ | ⟨_, hle, _⟩ | ⟨_, _, rfl, hloop⟩
  · omega
  · omega
  · have hstart : -10 - (s.waitAcc : Int) ≤ budget := by omega
    have := runLoop_overrun hstart hloop
    omega

/-- The iterations' cycles add up to what the loop takes from the counter. -/
theorem sum_iterations {fuel : Nat} {s t : State} (h : runLoop fuel s = .next t) :
    ((iterations fuel s).map (fun p => iterationCycles p.1 p.2)).sum = s.icount - t.icount := by
  induction fuel generalizing s with
  | zero => cases h; simp [iterations]
  | succ fuel ih =>
    rcases runLoop_succ fuel s with ⟨hdone, hstop⟩ | ⟨⟨hpos, hfaulted⟩, u, hu, hgo⟩
    · rw [hstop] at h
      cases h
      simp [iterations, if_pos hdone]
    · have hcycles := iteration_icount hu
      have hrest := ih (hgo ▸ h)
      have hmore : ¬(s.icount ≤ 0 ∨ s.faulted = true) := by simp [hfaulted, hpos]
      simp only [iterations, if_neg hmore, hu, List.map_cons, List.sum_cons, hrest]
      omega

/-- Settles O34: the run answers what its loop took from the budget. -/
theorem runAccountsEveryCycle : Obligations.RunAccountsEveryCycle := by
  intro budget n s t hpos hs h
  rcases executeRun_cases h with ⟨hfaulted, _⟩ | ⟨_, hle, _⟩ | ⟨_, _, rfl, hloop⟩
  · exact absurd hfaulted (by simp [hs])
  · omega
  · exact (sum_iterations hloop).symm

/-! ## A run as single steps -/

theorem illegalOpcode_script (s : State) (ipc : Word) (b0 : Byte) : (s.illegalOpcode ipc b0).script = s.script := by
  cases h : s.cfg.illegalPolicy with
  | nopContinue => rw [illegalOpcode_nop s ipc b0 h]
  | fatal => rw [illegalOpcode_fatal s ipc b0 h]

theorem runFetched_script {d : Fetched} {s t : State} (h : runFetched d s = .next t) : t.script = s.script := by
  cases hrow : lookup d.b0 d.b1 d.b2 with
  | none => rw [runFetched_of_none hrow] at h; cases h; exact illegalOpcode_script s _ _
  | some i =>
    rw [runFetched_of_some hrow] at h
    obtain ⟨_, _, _, _, hscript, _⟩ := instructionsLeaveSystemState i _ t h
    exact hscript

theorem execOne_script {s t : State} (h : execOne s = .next t) : t.script = s.script := by
  rw [runFetched_script h, fetchInstr_snd, afterFetches_eq]

theorem checkpoint_script (s : State) : s.checkpoint.script = s.script := by
  rcases checkpoint_cases s with ⟨_, h⟩ | ⟨_, _, h⟩ | ⟨_, _, _, h⟩ | ⟨_, _, _, h⟩ <;> rw [h]
  · exact performReset_script s
  · exact dispatch_script s .nmi
  · exact dispatch_script s .irq

/-- No iteration takes a quantum from the script. -/
theorem iteration_script {s t : State} (h : iteration s = .next t) : t.script = s.script := by
  rcases iteration_cases h with ⟨_, rfl⟩ | ⟨_, hexec⟩
  · rfl
  · exact (execOne_script hexec).trans (checkpoint_script s)

theorem run_succ_of_step {s t : State} (h : step s = .next t) (k : Nat) :
    Sys2Proof.core.run (k + 1) s = Sys2Proof.core.run k t := by
  have hstep : Sys2Proof.core.step s = .next t := h
  simp only [Host.Core.run, hstep]

/-- The loop is as many single steps as it makes iterations, whatever counter the steps begin with. -/
theorem runLoop_eq_steps {fuel : Nat} {s t : State} (n : Int) (hscript : s.script = []) (h : runLoop fuel s = .next t) :
    ∃ (k : Nat) (m : Int), k ≤ fuel ∧ Sys2Proof.core.run k (s.withCount n) = .next (t.withCount m) := by
  induction fuel generalizing s n with
  | zero => cases h; exact ⟨0, n, le_rfl, rfl⟩
  | succ fuel ih =>
    rcases runLoop_succ fuel s with ⟨_, hstop⟩ | ⟨⟨_, hfaulted⟩, u, hu, hgo⟩
    · rw [hstop] at h; cases h; exact ⟨0, n, Nat.zero_le _, rfl⟩
    · obtain ⟨c, hc⟩ := iteration_countFree s u 1 hu
      have hstep : step (s.withCount n) = .next (u.withCount c) :=
        (step_single (s := s.withCount n) hscript hfaulted).trans hc
      obtain ⟨k, m, hk, hrun⟩ := ih c ((iteration_script hu).trans hscript) (hgo ▸ h)
      exact ⟨k + 1, m, Nat.succ_le_succ hk, (run_succ_of_step hstep k).trans hrun⟩

/-- Settles O35: the run's loop is single steps, and a faulted core makes none. -/
theorem runEqualsSingleSteps : Obligations.RunEqualsSingleSteps := by
  intro budget n s t hpos hscript h
  rcases executeRun_cases h with ⟨_, _, rfl⟩ | ⟨_, hle, _⟩ | ⟨_, _, _, hloop⟩
  · exact ⟨0, t, Nat.zero_le _, rfl, rfl⟩
  · omega
  · obtain ⟨k, m, hk, hrun⟩ := runLoop_eq_steps (s := s.withCount budget) s.icount hscript hloop
    exact ⟨k, t.withCount m, hk, hrun, rfl⟩

/-! ## Runs that end at once -/

/-- Settles O37: neither a faulted core nor one that runs does anything. -/
theorem nonpositiveBudgetDoesNothing : Obligations.NonpositiveBudgetDoesNothing := by
  intro budget s hle
  rw [executeRun, if_pos hle, max_eq_right hle, ite_self]

/-- A run whose first iteration uses up the budget or faults the core ends after it. -/
theorem executeRun_of_first {budget n : Int} {s t : State} (hpos : 0 < budget) (hs : s.faulted = false)
    (h : iteration (s.withCount budget) = .next t) (hdone : t.icount ≤ 0 ∨ t.faulted = true)
    (hn : budget - t.icount = n) : executeRun budget s = .next (n, t) := by
  subst hn
  have hstart : ¬((s.withCount budget).icount ≤ 0 ∨ (s.withCount budget).faulted = true) := by
    show ¬(budget ≤ 0 ∨ s.faulted = true)
    simp [hs, hpos]
  obtain ⟨fuel, hfuel⟩ : ∃ fuel, budget.toNat = fuel + 1 := ⟨budget.toNat - 1, by omega⟩
  refine executeRun_of_pos (t := t) hs hpos ?_
  show runLoop budget.toNat (s.withCount budget) = .next t
  rw [hfuel, runLoop, if_neg hstart, h]
  exact runLoop_of_stop hdone fuel

/-- Settles O36: the one iteration of the run finds nothing to serve and idles. -/
theorem haltedRunIdles : Obligations.HaltedRunIdles := by
  intro budget s hpos hs hhalted hquiet
  have hcheck : (s.withCount budget).checkpoint = s.withCount budget := checkpoint_quiet hquiet
  have hidle : iteration (s.withCount budget) = .next { s with icount := 0 } := by
    rw [iteration, hcheck, afterCheckpoint]
    exact if_pos hhalted
  exact executeRun_of_first hpos hs hidle (.inl le_rfl) (Int.sub_zero budget)

/-- The first iteration of a running core fetches and runs one instruction, whatever the budget. -/
theorem iteration_running {s : State} (h : s.running = true) (n : Int) :
    iteration (s.withCount n) = runFetched s.atFetch.fetchInstr.1 (s.atFetch.fetchInstr.2.withCount n) := by
  simp only [State.running, Bool.and_eq_true, Bool.not_eq_true'] at h
  obtain ⟨⟨_, hhalted⟩, hquiet⟩ := h
  have hfetch := fetchInstr_withCount s.atFetch n
  have hcheck : (s.withCount n).checkpoint = s.withCount n := checkpoint_quiet hquiet
  rw [iteration_of_not_halted hcheck hhalted]
  show runFetched (s.atFetch.withCount n).fetchInstr.1 (s.atFetch.withCount n).fetchInstr.2 = _
  rw [hfetch]

/-- Settles O38: the first iteration reaches the handler with the budget not yet charged, and the handler faults the core. -/
theorem fatalEndsRun : Obligations.FatalEndsRun := by
  refine ⟨fun budget s hpos hrun hpolicy hnone => ?_, fun budget s hs => by rw [executeRun, if_pos hs]⟩
  have hs : s.faulted = false := by simp_all [State.running]
  have hpc : s.atFetch.fetchInstr.1.ipc = s.pc := by rw [fetchInstr_eq]; rfl
  have hfatal : (s.atFetch.fetchInstr.2.withCount budget).cfg.illegalPolicy = .fatal :=
    (congrArg Config.illegalPolicy (fetchInstr_cfg s.atFetch)).trans hpolicy
  have hfirst := iteration_running hrun budget
  rw [runFetched_of_none hnone, illegalOpcode_fatal _ _ _ hfatal] at hfirst
  exact ⟨_, executeRun_of_first hpos hs hfirst (.inr rfl) (Int.sub_self budget), rfl, hpc⟩

end Sys2Proof.Machine
end

section
/-! SUPPORT. Data movement between the registers and F. -/

namespace Sys2Proof.Machine

/-- F reads below 32: its mask has no bit above bit 4 (10_state.md R26). -/
theorem readF_toNat_lt (s : State) : s.readF.toNat < 32 := by
  have hle : s.readF.toNat ≤ flagMask.toNat := (BitVec.toNat_and s.f flagMask).trans_le Nat.and_le_right
  exact hle.trans_lt (by decide)

/-- Settles O54: each form is one write of a register or of F. `TFA` reads F through its mask, and `TAF` writes F through it,
so the byte that arrives has the five flags and no bit above them. -/
theorem dataMovementResults : Obligations.DataMovementResults := by
  intro s r v
  refine ⟨rfl, rfl, rfl, ?tfa, ?taf, rfl, rfl, rfl, rfl, rfl⟩
  case tfa => exact ⟨_, rfl, readF_toNat_lt s, fun _ => rfl, rfl⟩
  case taf => exact ⟨_, rfl, flag_setF s _, setF_high s _, rfl⟩

end Sys2Proof.Machine
end

section
/-! SUPPORT. Integer arithmetic: what the 8-bit helpers answer, each operation on A said once, and the instructions that use it. -/

namespace Sys2Proof.Machine

/-! ## The helpers as exact arithmetic -/

theorem msb_ofNat (n : Nat) : (BitVec.ofNat 8 n).msb = decide (128 ≤ n % 256) := by
  rw [msb_eq_decide, BitVec.toNat_ofNat]

theorem msb_ofInt (n : Int) : (BitVec.ofInt 8 n).msb = decide (128 ≤ n % 256) := by
  rw [msb_eq_decide, BitVec.toNat_ofInt, decide_eq_decide]
  omega

/-- V of a sum: operands of one sign and a result of the other are a signed sum out of range (42_arithmetic.md R161, R163). -/
theorem add8_v (a b : Byte) (cin : Bool) :
    (add8 a b cin).v = decide (a.toInt + b.toInt + cin.toNat < -128 ∨ 127 < a.toInt + b.toInt + cin.toNat) := by
  have hcin := cin.toNat_le
  have hv : (add8 a b cin).v = (a.msb == b.msb && (BitVec.ofNat 8 (a.toNat + b.toNat + cin.toNat)).msb != a.msb) := rfl
  rw [hv, msb_ofNat, msb_eq_decide, msb_eq_decide, Bool.eq_iff_iff]
  simp only [Bool.and_eq_true, beq_iff_eq, bne_iff_ne, ne_eq, decide_eq_decide, decide_eq_true_iff]
  have ha := toInt_cases a
  have hb := toInt_cases b
  omega

/-- V of a difference: operands of two signs and a result of the subtrahend's sign are a signed difference out of range
(42_arithmetic.md R165, R167). -/
theorem sub8_v (a b : Byte) (bin : Bool) :
    (sub8 a b bin).v = decide (a.toInt - b.toInt - bin.toNat < -128 ∨ 127 < a.toInt - b.toInt - bin.toNat) := by
  have hbin := bin.toNat_le
  have hv : (sub8 a b bin).v =
      (a.msb != b.msb && (BitVec.ofInt 8 ((a.toNat : Int) - b.toNat - bin.toNat)).msb != a.msb) := rfl
  rw [hv, msb_ofInt, msb_eq_decide, msb_eq_decide, Bool.eq_iff_iff]
  simp only [Bool.and_eq_true, bne_iff_ne, ne_eq, decide_eq_decide, decide_eq_true_iff]
  have ha := toInt_cases a
  have hb := toInt_cases b
  omega

/-- The low nibble of a byte. -/
theorem toNat_lowNibble (a : Byte) : (a.extractLsb' 0 4).toNat = a.toNat % 16 := BitVec.extractLsb'_toNat 0 4 a

/-- One down is 255 up, modulo 256. -/
theorem sub_one_eq_ofNat (a : Byte) : a - 1 = BitVec.ofNat 8 (a.toNat + 255) := by
  rw [BitVec.sub_def, Nat.add_comm]
  rfl

/-! ## The shared operations -/

theorem aluAdd_high (s : State) (b : Byte) (cin : Bool) : (s.aluAdd b cin).f &&& 0xE0 = 0 := by
  unfold State.aluAdd
  exact setCZSV_high _ _

theorem aluSub_high (s : State) (b : Byte) (bin : Bool) : (s.aluSub b bin).f &&& 0xE0 = 0 := by
  unfold State.aluSub
  exact setCZSV_high _ _

theorem aluCmp_high (s : State) (b : Byte) : (s.aluCmp b).f &&& 0xE0 = 0 := by
  unfold State.aluCmp
  exact setCZSV_high _ _

theorem aluAdn_high (s : State) (b : Byte) : (s.aluAdn b).f &&& 0xE0 = 0 := by
  unfold State.aluAdn
  exact setFlag_high _ _ _

theorem putZS_high (s : State) (r : Reg) (res : Byte) : (s.putZS r res).f &&& 0xE0 = 0 := by
  unfold State.putZS
  exact setZS_high _ _

/-- What `aluAdd` and a charge leave is a sum as R161 and R163 have it. -/
theorem adds_of_exec {i : Instr} {s : State} {b : Byte} {cin : Bool} {cost : Nat}
    (h : exec i s = .next ((s.aluAdd b cin).charge cost)) : Adds i s b cin cost := by
  have hflag (q : Flag) : ((s.aluAdd b cin).charge cost).flag q = (s.setCZSV (add8 (s.reg .a) b cin)).flag q :=
    (charge_flag _ cost q).trans (flag_aluAdd s b cin q)
  have ha : ((s.aluAdd b cin).charge cost).reg .a = (add8 (s.reg .a) b cin).res := rfl
  refine ⟨_, h, rfl, ?c, ?z, ?s, ?v, ?i, ?high, rfl⟩
  case high => rw [charge_f, aluAdd_high]
  case c => rw [hflag, flag_setCZSV, add8_c]
  case z => rw [hflag, flag_setCZSV, ha, beq_zero_eq_decide]
  case s => rw [hflag, flag_setCZSV, ha, msb_eq_decide]
  case v => rw [hflag, flag_setCZSV, add8_v]
  case i => rw [hflag, flag_setCZSV]

/-- The flags that `sub8` leaves are those of the exact difference. -/
theorem subFlags_of_flag {s t : State} {b : Byte} {bin : Bool}
    (hflag : ∀ q, t.flag q = (s.setCZSV (sub8 (s.reg .a) b bin)).flag q) (hhigh : t.f &&& 0xE0 = 0) :
    SubFlags s t b bin := by
  refine ⟨?c, ?z, ?s, ?v, ?i, hhigh⟩
  case c => rw [hflag, flag_setCZSV, sub8_c]
  case z => rw [hflag, flag_setCZSV, beq_zero_eq_decide, sub8_res]
  case s => rw [hflag, flag_setCZSV, msb_eq_decide, sub8_res]
  case v => rw [hflag, flag_setCZSV, sub8_v]
  case i => rw [hflag, flag_setCZSV]

/-- What `aluSub` and a charge leave is a difference as R165 and R167 have it. -/
theorem subtracts_of_exec {i : Instr} {s : State} {b : Byte} {bin : Bool} {cost : Nat}
    (h : exec i s = .next ((s.aluSub b bin).charge cost)) : Subtracts i s b bin cost := by
  refine ⟨_, h, rfl, subFlags_of_flag (fun q => ?flag) ?high, rfl⟩
  case flag => rw [charge_flag, flag_aluSub]
  case high => rw [charge_f, aluSub_high]

/-- What `aluCmp` and a charge leave is a comparison as R169 has it. -/
theorem compares_of_exec {i : Instr} {s : State} {b : Byte} {cost : Nat}
    (h : exec i s = .next ((s.aluCmp b).charge cost)) : Compares i s b cost := by
  refine ⟨_, h, subFlags_of_flag (fun q => ?flag) ?high, rfl⟩
  case flag => rw [charge_flag, flag_aluCmp]
  case high => rw [charge_f, aluCmp_high]

theorem flag_c_aluAdn (s : State) (b : Byte) :
    (s.aluAdn b).flag .c = decide (15 < (s.reg .a).toNat % 16 + b.toNat % 16) := by
  unfold State.aluAdn
  rw [flag_setFlag, if_neg (by decide), flag_setFlag, if_pos rfl, toNat_lowNibble, toNat_lowNibble]

theorem flag_z_aluAdn (s : State) (b : Byte) : (s.aluAdn b).flag .z = decide ((s.reg .a + b).toNat = 0) := by
  unfold State.aluAdn
  rw [flag_setFlag, if_pos rfl, beq_zero_eq_decide]

/-- What `aluAdn` and a charge leave is a nibble-carry sum as R171 has it. -/
theorem addsNibble_of_exec {i : Instr} {s : State} {b : Byte} {cost : Nat}
    (h : exec i s = .next ((s.aluAdn b).charge cost)) : AddsNibble i s b cost := by
  refine ⟨_, h, BitVec.add_def (s.reg .a) b, flag_c_aluAdn s b, flag_z_aluAdn s b, ?s, ?v, ?i, ?high, rfl⟩
  case s | v | i => rw [charge_flag, flag_aluAdn_of_ne s b (by decide) (by decide)]
  case high => rw [charge_f, aluAdn_high]

/-- What `putZS` and a charge leave is a result that sets Z and S alone. -/
theorem putsZS_of_exec {i : Instr} {s : State} {r : Reg} {res : Byte} {cost : Nat}
    (h : exec i s = .next ((s.putZS r res).charge cost)) : PutsZS i s r res cost := by
  have hflag (q : Flag) : ((s.putZS r res).charge cost).flag q = (s.setZS res).flag q :=
    (charge_flag _ cost q).trans (flag_putZS s r res q)
  refine ⟨_, h, ?z, ?s, ?c, ?v, ?i, ?high, rfl⟩
  case z => rw [hflag, flag_setZS, beq_zero_eq_decide]
  case s => rw [hflag, flag_setZS, msb_eq_decide]
  case c | v | i => rw [hflag, flag_setZS]
  case high => rw [charge_f, putZS_high]

/-! ## What a comparison says -/

theorem SubFlags.z_iff {s t : State} {b : Byte} (h : SubFlags s t b false) : t.flag .z = true ↔ s.reg .a = b := by
  obtain ⟨-, hz, -⟩ := h
  rw [hz, decide_eq_true_iff, BitVec.toNat_ofInt, BitVec.toNat_eq, Bool.toNat_false]
  omega

theorem SubFlags.c_iff {s t : State} {b : Byte} (h : SubFlags s t b false) :
    t.flag .c = true ↔ (s.reg .a).toNat < b.toNat := by
  obtain ⟨hc, -⟩ := h
  rw [hc, decide_eq_true_iff]
  rfl

/-- S is the sign of the narrowed difference, and V says that the exact difference has the other sign. -/
theorem SubFlags.s_ne_v_iff {s t : State} {b : Byte} (h : SubFlags s t b false) :
    t.flag .s ≠ t.flag .v ↔ (s.reg .a).toInt < b.toInt := by
  obtain ⟨-, -, hs, hv, -⟩ := h
  rw [hs, hv, Ne, decide_eq_decide, BitVec.toNat_ofInt, Bool.toNat_false]
  have ha := toInt_cases (s.reg .a)
  have hb := toInt_cases b
  omega

/-- An instruction has one outcome, so the state a comparison ends in has the flags of the subtraction. -/
theorem Compares.subFlags {i : Instr} {s t : State} {b : Byte} {cost : Nat} (h : Compares i s b cost)
    (ht : exec i s = .next t) : SubFlags s t b false := by
  obtain ⟨u, hu, hflags, -⟩ := h
  cases hu.symm.trans ht
  exact hflags

/-! ## The statements -/

/-- Settles O46: each form is one `aluAdd` and its charge. -/
theorem addAndAdcResults : Obligations.AddAndAdcResults := fun _ _ _ =>
  ⟨adds_of_exec rfl, adds_of_exec rfl, adds_of_exec rfl, adds_of_exec rfl, rfl, rfl, rfl, rfl⟩

/-- Settles O47: each form is one `aluSub` and its charge. -/
theorem subAndSbcResults : Obligations.SubAndSbcResults := fun _ _ _ =>
  ⟨subtracts_of_exec rfl, subtracts_of_exec rfl, subtracts_of_exec rfl, subtracts_of_exec rfl, rfl, rfl, rfl, rfl⟩

/-- Settles O48: each form is one `aluCmp` and its charge, and the flags of a subtraction without borrow order the operands. -/
theorem cmpResults : Obligations.CmpResults := by
  have hR (s : State) (r : Reg) : Compares (.cmpR r) s (s.reg r) 1 := compares_of_exec rfl
  have hI (s : State) (v : Byte) : Compares (.cmpI v) s v 2 := compares_of_exec rfl
  refine ⟨fun s r v => ⟨hR s r, hI s v, rfl, rfl⟩, fun s t r v h => ?_⟩
  have hflags : SubFlags s t v false := by
    rcases h with ⟨h, rfl⟩ | h
    · exact (hR s r).subFlags h
    · exact (hI s v).subFlags h
  exact ⟨hflags.z_iff, hflags.c_iff, hflags.s_ne_v_iff⟩

/-- Settles O49: each form is one `aluAdn` and its charge. -/
theorem adnResults : Obligations.AdnResults := fun _ _ _ =>
  ⟨addsNibble_of_exec rfl, addsNibble_of_exec rfl, rfl, rfl⟩

/-- Settles O50: both are one `putZS` and its charge, of the register one up and one down. -/
theorem incAndDecResults : Obligations.IncAndDecResults := by
  intro s r
  refine ⟨putsZS_of_exec rfl, ?dec, rfl, rfl⟩
  case dec =>
    rw [← sub_one_eq_ofNat]
    exact putsZS_of_exec rfl

end Sys2Proof.Machine
end

section
/-! SUPPORT. Logic, shifts, rotations and the instructions that write one flag: a shifted or rotated byte as a number, and each
shared operation said once as the shape of result it leaves. -/

namespace Sys2Proof.Machine

/-! ## Shifted and rotated bytes as numbers -/

theorem getLsbD_seven_eq_decide (a : Byte) : a.getLsbD 7 = decide (128 ≤ a.toNat) := msb_eq_decide a

theorem getLsbD_zero_eq_decide (a : Byte) : a.getLsbD 0 = decide (a.toNat % 2 = 1) := Nat.testBit_zero a.toNat

/-- One to the left is twice, modulo 256. -/
theorem shiftLeft_one_eq_ofNat (a : Byte) : a <<< 1 = BitVec.ofNat 8 (a.toNat * 2) := by
  rw [BitVec.shiftLeft_eq_mul_twoPow, BitVec.mul_def]
  rfl

/-- One to the right is half. -/
theorem shiftRight_one_eq_ofNat (a : Byte) : a >>> 1 = BitVec.ofNat 8 (a.toNat / 2) :=
  eq_ofNat_of_toNat_eq (BitVec.toNat_ushiftRight a 1)

/-- Clearing a clear bit changes nothing. -/
theorem putBit_false_of_clear {v : Byte} {n : Nat} (h : v.getLsbD n = false) (hn : n < 8) : putBit v n false = v := by
  apply BitVec.eq_of_getLsbD_eq
  intro m _
  rw [getLsbD_putBit v n m false hn]
  split
  · next hm => rw [hm, h]
  · rfl

/-- Setting a clear bit adds its weight. -/
theorem putBit_true_of_clear {v : Byte} {n : Nat} (h : v.getLsbD n = false) :
    putBit v n true = v + BitVec.ofNat 8 (2 ^ n) := by
  have hweight : BitVec.ofNat 8 (2 ^ n) = BitVec.twoPow 8 n := BitVec.eq_of_toNat_eq (by simp)
  have hdisjoint : v &&& BitVec.twoPow 8 n = 0#8 := by rw [BitVec.and_twoPow, h]; rfl
  rw [hweight, BitVec.add_eq_or_of_and_eq_zero v _ hdisjoint, BitVec.twoPow_eq]
  rfl

/-- Putting a bit where there is none adds its weight. -/
theorem putBit_of_clear {v : Byte} {n : Nat} (b : Bool) (h : v.getLsbD n = false) (hn : n < 8) :
    putBit v n b = v + BitVec.ofNat 8 (2 ^ n * b.toNat) := by
  cases b with
  | false => rw [putBit_false_of_clear h hn, Bool.toNat_false, Nat.mul_zero, BitVec.add_zero]
  | true => rw [putBit_true_of_clear h, Bool.toNat_true, Nat.mul_one]

/-- `ROL`: the shift leaves bit 0 clear, and C goes there (43_logic_shift.md R188). -/
theorem rotateLeft_eq_ofNat (a : Byte) (c : Bool) : putBit (a <<< 1) 0 c = BitVec.ofNat 8 (a.toNat * 2 + c.toNat) := by
  rw [putBit_of_clear c (by simp) (by decide), shiftLeft_one_eq_ofNat, ← BitVec.ofNat_add, Nat.pow_zero, Nat.one_mul]

/-- `ROR`: the shift leaves bit 7 clear, and C goes there with weight 128 (43_logic_shift.md R189). -/
theorem rotateRight_eq_ofNat (a : Byte) (c : Bool) :
    putBit (a >>> 1) 7 c = BitVec.ofNat 8 (a.toNat / 2 + 128 * c.toNat) := by
  rw [putBit_of_clear c (by simp) (by decide), shiftRight_one_eq_ofNat, ← BitVec.ofNat_add]
  rfl

/-! ## The shared operations -/

theorem putShift_high (s : State) (res : Byte) (out : Bool) : (s.putShift res out).f &&& 0xE0 = 0 := by
  unfold State.putShift
  exact setZS_high _ _

/-- What `putShift` and a charge leave is a shift or rotation as R186 to R189 have it. -/
theorem shifts_of_exec {i : Instr} {s : State} {v : Byte} {res : Nat} {out : Bool} (hres : v = BitVec.ofNat 8 res)
    (h : exec i s = .next ((s.putShift v out).charge 1)) : Shifts i s res out := by
  have hflag (q : Flag) : ((s.putShift v out).charge 1).flag q = ((s.setFlag .c out).setZS v).flag q :=
    (charge_flag _ 1 q).trans (flag_putShift s v out q)
  have ha : ((s.putShift v out).charge 1).reg .a = v := rfl
  refine ⟨_, h, hres, ?c, ?z, ?s, ?v, ?i, ?high, rfl⟩
  case z => rw [hflag, flag_setZS, ha, beq_zero_eq_decide]
  case s => rw [hflag, flag_setZS, ha, msb_eq_decide]
  case c | v | i => simp [hflag]
  case high => rw [charge_f, putShift_high]

/-- What a write of one flag, the shadow and a charge leave is that flag written and the other four kept. -/
theorem putsFlag_of_exec {i : Instr} {s : State} {fl : Flag} {b shadow : Bool}
    (h : exec i s = .next (State.charge { s.setFlag fl b with ishadow := shadow } 1)) : PutsFlag i s fl b shadow := by
  have hflag (q : Flag) :
      (State.charge { s.setFlag fl b with ishadow := shadow } 1).flag q = if q = fl then b else s.flag q :=
    flag_setFlag s fl q b
  refine ⟨_, h, ?written, fun other hne => ?kept, setFlag_high s fl b, rfl⟩
  case written => rw [hflag, if_pos rfl]
  case kept => rw [hflag, if_neg hne]

/-! ## The statements -/

/-- Settles O51: each form is one `putZS` of A and its charge. -/
theorem logicResults : Obligations.LogicResults := fun _ _ _ =>
  ⟨putsZS_of_exec rfl, putsZS_of_exec rfl, putsZS_of_exec rfl, putsZS_of_exec rfl, putsZS_of_exec rfl, putsZS_of_exec rfl,
    rfl, rfl, rfl, rfl, rfl, rfl⟩

/-- Settles O52: each is one `putShift` and its charge, of a byte whose number is twice or half that of A, with the old C in the
vacant bit for a rotation. -/
theorem shiftResults : Obligations.ShiftResults := by
  intro s
  rw [← getLsbD_seven_eq_decide, ← getLsbD_zero_eq_decide]
  exact ⟨shifts_of_exec (shiftLeft_one_eq_ofNat _) rfl, shifts_of_exec (shiftRight_one_eq_ofNat _) rfl,
    shifts_of_exec (rotateLeft_eq_ofNat _ _) rfl, shifts_of_exec (rotateRight_eq_ofNat _ _) rfl, rfl, rfl, rfl, rfl⟩

/-- Settles O53: each is one write of a flag and its charge; the shadow that all but `EI` keep is the one they find. -/
theorem oneFlagResults : Obligations.OneFlagResults := fun _ =>
  ⟨putsFlag_of_exec rfl, putsFlag_of_exec rfl, putsFlag_of_exec rfl, putsFlag_of_exec rfl, rfl, rfl, rfl, rfl⟩

end Sys2Proof.Machine
end

section
/-! SUPPORT. Control transfer: a branch target as a number, and the common operation of the nine branches said once as the shape
of result it leaves. -/

namespace Sys2Proof.Machine

/-- A target is PC plus the signed displacement, which wraps in both directions (45_control_transfer.md R211). -/
theorem toNat_add_displacement (pc : Word) (rel8 : Byte) :
    ((pc + displacement rel8).toNat : Int) = (pc.toNat + rel8.toInt) % 65536 := by
  have htarget : pc + displacement rel8 = BitVec.ofInt 16 (pc.toNat + rel8.toInt) := by
    rw [BitVec.ofInt_add, BitVec.ofInt_natCast, BitVec.ofNat_toNat, BitVec.setWidth_eq]
    rfl
  rw [htarget, BitVec.toNat_ofInt]
  exact Int.toNat_of_nonneg (Int.emod_nonneg _ (by decide))

/-- What `Branch(cond, rel8)` leaves is a relative branch on `cond` (45_control_transfer.md R211). -/
theorem branches_of_exec {i : Instr} {s : State} {rel8 : Byte} {cond : Bool}
    (h : exec i s = .next (s.branch cond rel8)) : Branches i s rel8 cond := by
  cases cond with
  | true =>
    rw [branch_taken] at h
    exact ⟨_, h, fun _ => toNat_add_displacement s.pc rel8, nofun, rfl⟩
  | false =>
    rw [branch_not_taken] at h
    exact ⟨_, h, nofun, fun _ => rfl, rfl⟩

/-- Settles O57: each of the nine is one `State.branch`, on its flag or the flag's negation. -/
theorem branchResults : Obligations.BranchResults := fun _ _ =>
  ⟨branches_of_exec rfl, branches_of_exec rfl, branches_of_exec rfl, branches_of_exec rfl, branches_of_exec rfl,
    branches_of_exec rfl, branches_of_exec rfl, branches_of_exec rfl, branches_of_exec rfl,
    rfl, rfl, rfl, rfl, rfl, rfl, rfl, rfl, rfl⟩

/-- Settles O58: `JMP` is one write of PC, `CALL` a push of PC before it, `RET` a pop before it, and each its charge. -/
theorem jumpCallRetResults : Obligations.JumpCallRetResults := fun _ _ =>
  ⟨rfl, rfl, rfl, rfl, rfl, rfl⟩

end Sys2Proof.Machine
end

section
/-! SUPPORT. The system instructions: what a dispatch leaves in the two entries it pushes and what `RETI` pops of them; `NOP` and
`HLT`. -/

namespace Sys2Proof.Machine

/-! ## What a dispatch pushes and a pop returns -/

/-- The lower of the two entries is the interrupted PC: the push of F goes beside it. -/
theorem entry_dispatch_spl (s : State) (k : Interrupt) : (s.dispatch k).entry s.spl = s.pc := by
  have hne : s.spl ≠ (s.push s.pc).spl := by
    rw [push_spl]
    bv_omega
  calc (s.dispatch k).entry s.spl
    _ = ((s.push s.pc).push (s.readF.setWidth 16)).entry s.spl := by simp only [State.entry, dispatch_stk]
    _ = (s.push s.pc).entry s.spl := entry_push_of_ne _ _ hne
    _ = s.pc := entry_push_self s s.pc

/-- The upper of the two entries is the interrupted F. -/
theorem entry_dispatch_spl_add_one (s : State) (k : Interrupt) :
    (s.dispatch k).entry (s.spl + 1) = s.readF.setWidth 16 := by
  calc (s.dispatch k).entry (s.spl + 1)
    _ = ((s.push s.pc).push (s.readF.setWidth 16)).entry (s.spl + 1) := by simp only [State.entry, dispatch_stk]
    _ = s.readF.setWidth 16 := entry_push_self (s.push s.pc) _

/-- F goes through an entry of the stack and back through its mask unchanged. -/
theorem readF_setWidth_and_flagMask (s : State) :
    (s.readF.setWidth 16).setWidth 8 &&& flagMask = s.readF := by
  rw [BitVec.setWidth_setWidth_of_le _ (by decide), BitVec.setWidth_eq, State.readF, BitVec.and_assoc, BitVec.and_self]

/-- The entry a pop returns, where SPL is one above it. -/
theorem top_eq_entry {u : State} {j : BitVec 3} (h : u.spl = j + 1) : u.top = u.entry j := by
  have hj : u.spl - 1 = j := by rw [h, BitVec.add_sub_cancel]
  subst hj
  rfl

/-! ## The statements -/

/-- Settles O14: the first pop finds the entry above the interrupted level, which is F, the second the entry at that level,
which is PC. -/
theorem returnUndoesDispatch : Obligations.ReturnUndoesDispatch := by
  intro s u k hspl hkept
  rw [dispatch_spl] at hspl
  have hlevel : u.spl = s.spl + 1 + 1 := by rw [hspl]; bv_omega
  have hdrop : u.drop.spl = s.spl + 1 := by rw [drop_spl, hlevel, BitVec.add_sub_cancel]
  have hf : u.top = s.readF.setWidth 16 :=
    calc u.top
      _ = u.entry (s.spl + 1) := top_eq_entry hlevel
      _ = (s.dispatch k).entry (s.spl + 1) := hkept _ (.inr rfl)
      _ = s.readF.setWidth 16 := entry_dispatch_spl_add_one s k
  have hpc : u.drop.top = s.pc :=
    calc u.drop.top
      _ = u.entry s.spl := top_eq_entry hdrop
      _ = (s.dispatch k).entry s.spl := hkept _ (.inl rfl)
      _ = s.pc := entry_dispatch_spl s k
  refine ⟨u.returnFromInterrupt.charge 4, rfl, hpc, ?f, ?spl, rfl⟩
  case f =>
    calc (u.returnFromInterrupt.charge 4).readF
      _ = u.top.setWidth 8 &&& flagMask := readF_setF u _
      _ = s.readF := by rw [hf, readF_setWidth_and_flagMask]
  case spl => rw [charge_spl, returnFromInterrupt_spl, hlevel, BitVec.add_sub_cancel, BitVec.add_sub_cancel]

/-- Settles O59: `NOP` is its charge alone; `HLT` is the change of HALTACK that `setHalted_eq` says, and its charge. -/
theorem nopAndHltResults : Obligations.NopAndHltResults := by
  intro s
  have hhalt : s.setHalted true = s.haltackAfter true := setHalted_eq s true
  refine ⟨rfl, ?hlt, rfl, rfl⟩
  calc exec .hlt s
    _ = .next ((s.setHalted true).charge 1) := rfl
    _ = .next ((s.haltackAfter true).charge 1) := by rw [hhalt]

end Sys2Proof.Machine
end

section
/-! SUPPORT. Interrupt entry, `Reset()` and the edges of the lines: what each writes, in the terms of the state it begins in. -/

namespace Sys2Proof.Machine

variable (s : State)

/-! ## Interrupt entry -/

/-- A dispatch as far as its HALTACK callback: the two pushes, I and the shadow cleared (60_exceptions.md R255). -/
def State.dispatchSaved : State :=
  { s with
    stk := (s.stk.set s.spl.toNat s.pc s.spl.isLt).set (s.spl + 1).toNat (s.readF.setWidth 16) (s.spl + 1).isLt
    spl := s.spl + 2
    f := s.readF &&& 0x0F
    ishadow := false }

/-- F with I cleared: within the mask of F, bits 3:0 are what is left. -/
theorem putBit_i_false_and_flagMask (v : Byte) : putBit v Flag.i.bit false &&& flagMask = v &&& 0x0F :=
  BitVec.and_assoc v _ _

theorem dispatchSaved_eq_pushes :
    s.dispatchSaved = { ((s.push s.pc).push (s.readF.setWidth 16)).setFlag .i false with ishadow := false } := by
  have hf : (((s.push s.pc).push (s.readF.setWidth 16)).setFlag .i false).f = s.readF &&& 0x0F :=
    putBit_i_false_and_flagMask s.readF
  have hspl : s.spl + 1 + 1 = s.spl + 2 := BitVec.add_assoc s.spl 1 1
  rw [State.dispatchSaved, ← hf, ← hspl]
  rfl

/-- What a dispatch does after its saves: HALTACK is driven to 0, and only then the latch is cleared (log 11). -/
theorem dispatch_eq_dispatchSaved (k : Interrupt) :
    s.dispatch k =
      (((s.dispatchSaved.haltackAfter false).acknowledge k).setPc k.vector).spend intCycles := by
  have hhalt : s.dispatchSaved.setHalted false = s.dispatchSaved.haltackAfter false := setHalted_eq _ false
  rw [dispatch_eq_pushes, ← dispatchSaved_eq_pushes, hhalt]

/-- Settles O11: the saves touch neither HALTACK nor the lines, so the callback is that of the state before them. -/
theorem dispatchEntersInterrupt : Obligations.DispatchEntersInterrupt := by
  intro s k
  rw [dispatch_eq_dispatchSaved]
  cases k with
  | nmi => rfl
  | irq => rfl

/-! ## `Reset()` -/

/-- A reset charges no cycle (70_reset_and_hazards.md R281). -/
@[simp] theorem spend_resetCycles : s.spend resetCycles = s := by
  rw [State.spend, resetCycles, Int.ofNat_zero, Int.sub_zero]

/-- Settles O15: what `Reset()` zeroes beside the latches plays no part in its HALTACK callback, which comes after them. -/
theorem resetProcedure : Obligations.ResetProcedure := by
  intro s
  rw [State.performReset, setHalted_eq, spend_resetCycles]
  rfl

/-! ## The edges of the lines -/

/-- A level that does not change is no edge. -/
@[simp] theorem risingEdge_self (l : Level) : risingEdge l l = false := by
  cases l <;> rfl

/-- Clearing a line is no edge, whatever its level was. -/
@[simp] theorem risingEdge_cleared (was : Level) : risingEdge was .cleared = false := Bool.and_false _

/-- What `set_line` leaves of a latch where there is no edge (60_exceptions.md R243). -/
theorem or_risingEdge_of_no_edge {was now : Level} (h : risingEdge was now = false) (latch : Bool) :
    (latch || risingEdge was now) = latch := by
  rw [h, Bool.or_false]

theorem set_cleared_latches (l : LineState) (line : Line) :
    (l.set { line := line, level := .cleared }).nmiPending = l.nmiPending ∧
    (l.set { line := line, level := .cleared }).resetPending = l.resetPending := by
  cases line with
  | irq => exact ⟨rfl, rfl⟩
  | nmi => exact ⟨or_risingEdge_of_no_edge (risingEdge_cleared l.nmiLevel) l.nmiPending, rfl⟩
  | reset => exact ⟨rfl, or_risingEdge_of_no_edge (risingEdge_cleared l.resetLevel) l.resetPending⟩

/-- Settles O40: only an edge writes a latch, and IRQ has none, so its last level is all that is recorded. -/
theorem lineEdgeLaws : Obligations.LineEdgeLaws := by
  intro s
  refine ⟨rfl, ?nmi, ?reset, set_cleared_latches s.lines, ?pulse⟩
  case nmi =>
    have hlatch := or_risingEdge_of_no_edge (risingEdge_self s.lines.nmiLevel) s.lines.nmiPending
    exact congrArg (fun latch => { s with lines := { s.lines with nmiPending := latch } }) hlatch
  case reset =>
    have hlatch := or_risingEdge_of_no_edge (risingEdge_self s.lines.resetLevel) s.lines.resetPending
    exact congrArg (fun latch => { s with lines := { s.lines with resetPending := latch } }) hlatch
  case pulse =>
    intro hirq
    calc (s.setLine { line := .irq, level := .asserted }).setLine { line := .irq, level := .cleared }
      _ = s.setLine { line := .irq, level := .cleared } := rfl
      _ = s.setLine { line := .irq, level := s.lines.irqLevel } := by rw [hirq]
      _ = s := rfl

end Sys2Proof.Machine
end
